-- ==== Sys2Proof/Word.lean ====
section
/-!
DEFINITION. The words of the 2480: bytes, 16-bit words, node numbers, and the small ranges (classes,
stations) that the manual gives to single fields.
-/

namespace Sys2Proof

/-- One byte of a frame, a request or an image (R184). -/
abbrev Byte := BitVec 8

/-- A number from 0 to 65535: a point value, a mask, a report number, a generation, a scan cycle. -/
abbrev Word := BitVec 16

/-- A node number, 0 to 127 (R133). -/
abbrev Node := BitVec 7

/-- A report class, 0 to 7 (R60). -/
abbrev ReportClass := Fin 8

/-- A rank, 0 (best) to 7 (R83, R86). -/
abbrev Rank := Fin 8

/-- A field station; the modules are 1 to 63 (R15). -/
abbrev Station := Fin 64

/-- A count that saturates stays at its greatest value once it reaches it (Conventions, Numbers). -/
def saturate (greatest n : Nat) : Nat := min greatest n

/-- A node that can stand as the source of a frame, 1 to 126 (R133). -/
def validSource (n : Node) : Bool := 1 ≤ n.toNat && n.toNat ≤ 126

end Sys2Proof
end

