-- ==== Sys2Proof/Syntax.lean ====
section
/-!
DEFINITION. The commands of the 2480: one constructor of `Instr` for each row of spec/opcode_table.json, with what the
world outside gives with it (the bytes of a frame, the fields of a request, the station or class of a timer).
-/

namespace Sys2Proof

/-- The START strap: wait for the trunk, or load an image (R172). -/
inductive Strap
  | trunk
  | image
deriving DecidableEq, Repr

/-- The levels on the input pins that are sampled at a start (R172): the seven NODE pins and the START strap. -/
structure Pins where
  node  : BitVec 7
  strap : Strap
deriving DecidableEq, Repr

/-- The commands (spec/opcode_table.json, 95_what_each_step_holds.md).

A request command stands for the arrival, on the T-port, of a MGMT-REQ frame that is addressed to the part's own node,
from source `src`, with its tag and the parameter bytes that follow the request name (R139, R151, R187; log 4).
A frame command carries the bytes of the frame as received (R185). An image command carries the bytes with which the
configuration memory answered; a string shorter than what is read means the memory gave no answer there (R175; log 10). -/
inductive Instr
  /-- Assertion of the RESET input (R174). -/
  | pinReset
  /-- The end of a pin reset, with the levels then sampled (R172). -/
  | endOfPinReset (pins : Pins)
  /-- The scrub has ended (R173). -/
  | endOfScrub
  /-- The image reader reads the header (R175). -/
  | imageHeaderRead (answer : List Byte)
  /-- The image reader reads one record: kind, length, content (R176, R188). -/
  | imageRecordRead (answer : List Byte)
  /-- The image reader reads the trailing CRC (R177). -/
  | imageCrcRead (answer : List Byte)
  /-- A frame received whole on the F-port (R136). -/
  | fPortFrameReceived (bytes : List Byte)
  /-- A frame received whole on the T-port (R138); the pin levels matter only to a RESTART of level COLD. -/
  | tPortFrameReceived (bytes : List Byte) (pins : Pins)
  /-- A request whose name byte is not in the catalogue (R153). -/
  | unknownRequest (src : Node) (tag name : Byte) (params : List Byte)
  | claim (src : Node) (tag : Byte) (params : List Byte)
  | yieldOwnership (src : Node) (tag : Byte) (params : List Byte)
  | queryStatus (src : Node) (tag : Byte) (params : List Byte)
  | readEntry (src : Node) (tag : Byte) (params : List Byte)
  | readModule (src : Node) (tag : Byte) (params : List Byte)
  | stageEntry (src : Node) (tag : Byte) (params : List Byte)
  | unstageEntry (src : Node) (tag : Byte) (params : List Byte)
  | stageModule (src : Node) (tag : Byte) (params : List Byte)
  | unstageModule (src : Node) (tag : Byte) (params : List Byte)
  | clearStaging (src : Node) (tag : Byte) (params : List Byte)
  | copyActive (src : Node) (tag : Byte) (params : List Byte)
  /-- The copy comes to its end (R123). -/
  | copyActiveCompletion
  | commit (src : Node) (tag : Byte) (params : List Byte)
  /-- The commit's check finds an entry of an unlisted module (R125). -/
  | commitRefusal
  /-- The commit comes to its completion (R126 to R128). -/
  | commitCompletion
  | setClass (src : Node) (tag : Byte) (params : List Byte)
  | setPart (src : Node) (tag : Byte) (params : List Byte)
  | discardClass (src : Node) (tag : Byte) (params : List Byte)
  | ack (src : Node) (tag : Byte) (params : List Byte)
  | sweepStart (src : Node) (tag : Byte) (params : List Byte)
  | sweepStop (src : Node) (tag : Byte) (params : List Byte)
  | armMark (src : Node) (tag : Byte) (params : List Byte)
  | disarmMark (src : Node) (tag : Byte) (params : List Byte)
  | hold (src : Node) (tag : Byte) (params : List Byte)
  | release (src : Node) (tag : Byte) (params : List Byte)
  /-- RESTART of level WARM (R183): its one parameter byte is the level. -/
  | warmRestart (src : Node) (tag : Byte)
  /-- RESTART of level COLD (R174, R183), with the pin levels it samples. -/
  | coldRestart (src : Node) (tag : Byte) (pins : Pins)
  /-- The silence timer of an ACTIVE slot runs out (R49). -/
  | silenceExpiry (station : Station)
  /-- The ack wait timer runs out (R90). -/
  | ackWaitExpiry
  /-- The hail timer runs out (R95). -/
  | hailExpiry
  /-- A class's refill timer runs out (R87). -/
  | refillExpiry (cls : ReportClass)
  /-- The Transmit Arbiter grants the free T-port transmitter (R146). -/
  | transmitGrant
  /-- The last byte of a frame leaves the T-port (R148). -/
  | tPortFrameEnd
  /-- The free F-port transmitter begins to send the front of the Down FIFO (R144). -/
  | fPortTransmitStart
  /-- A frame finishes leaving the F-port (R144). -/
  | fPortTransmitEnd
deriving DecidableEq, Repr

end Sys2Proof
end

