-- ==== Sys2Proof/Decode.lean ====
section
/-!
DEFINITION. The command that a word spells by the bits of spec/opcode_table.json. The 2480 is a block whose table gives
no row any bits, so no word spells a command (log 15). The byte layouts of frames, requests and images (Section 11)
are read by Sys2Proof/Machine/Operands.lean.
-/

namespace Sys2Proof

/-- No row of the table gives bits, so no word spells a command. -/
def decodeTableWord (_nbits _w : Nat) : Option Instr := none

end Sys2Proof
end

