-- ==== Sys2Proof/Config.lean ====
section
/-!
DEFINITION. What is fixed for the part: the capacities the manual states, and the free values that stand for
what it leaves open. A free value has no body, so nothing can be proved of which value it is.
-/

namespace Sys2Proof.Config

/-- A bank's Point Table holds at most 512 entries (R4). -/
abbrev tableCapacity : Nat := 512

/-- The eight class lists share 256 report records (R60). -/
abbrev poolCapacity : Nat := 256

/-- The urgent list holds at most 4 records (R60). -/
abbrev urgentCapacity : Nat := 4

/-- The outstanding list holds at most 32 records (R79). -/
abbrev outstandingCapacity : Nat := 32

/-- The Up FIFO and the Down FIFO hold 8 frames each (R143, R144). -/
abbrev fifoCapacity : Nat := 8

/-- The response list has four places for responses made on taking a request (R145). -/
abbrev responseCapacity : Nat := 4

/-- Lost counts, lost-before and repeat counts saturate at 255 (R57, R62). -/
abbrev countMax : Nat := 255

/-- The count swept saturates at 512 (R103). -/
abbrev sweptMax : Nat := 512

/-- The tallies saturate at 65535 (R135). -/
abbrev tallyMax : Nat := 65535

/-- DESIGN CHOICE (log 11). A free value: the class byte the part writes beside a scope of ALL or DISAGREE, which R187
says is read only for CLASS and for which it states no value. Indexed by `State.freeCount`. -/
opaque freeByte : Nat → Byte

/-- DESIGN CHOICE (log 13). A free value: which of two claims raised by one event is taken first, where R63 and R114 leave
both orders open. Indexed by `State.freeCount`. -/
opaque freeOrder : Nat → Nat

end Sys2Proof.Config
end

