-- ==== Sys2Proof/Machine/State.lean ====
section
/-!
DEFINITION. The state of the 2480, block by block (00_scope.md, Block overview: "Each owns its own state"), the values it
takes at reset, and the outcomes a step can have. Every field is plain data.
-/

namespace Sys2Proof.Machine

/-! ## One value for each class -/

/-- One value for each of the eight report classes (R60). -/
structure PerClass (α : Type) where
  c0 : α
  c1 : α
  c2 : α
  c3 : α
  c4 : α
  c5 : α
  c6 : α
  c7 : α
deriving DecidableEq, Repr

/-- The value of one class. -/
def PerClass.get {α : Type} (p : PerClass α) : ReportClass → α
  | 0 => p.c0
  | 1 => p.c1
  | 2 => p.c2
  | 3 => p.c3
  | 4 => p.c4
  | 5 => p.c5
  | 6 => p.c6
  | 7 => p.c7

/-- The values given class by class. -/
def PerClass.ofFn {α : Type} (f : ReportClass → α) : PerClass α :=
  ⟨f 0, f 1, f 2, f 3, f 4, f 5, f 6, f 7⟩

/-- One class's value replaced. -/
def PerClass.set {α : Type} (p : PerClass α) (c : ReportClass) (a : α) : PerClass α :=
  PerClass.ofFn fun d => if d = c then a else p.get d

/-- The eight values in class order. -/
def PerClass.toList {α : Type} (p : PerClass α) : List α :=
  [p.c0, p.c1, p.c2, p.c3, p.c4, p.c5, p.c6, p.c7]

/-- The eight classes in order. -/
def allClasses : List ReportClass := [0, 1, 2, 3, 4, 5, 6, 7]

/-! ## Timers -/

/-- A timer of the millisecond time base: stopped, or running with the time it has left and the duration it was started
with (R46, R54, R89). -/
inductive Timer
  | stopped
  | running (remaining duration : Nat)
deriving DecidableEq, Repr

/-- A timer started, or started afresh, with a duration. -/
def Timer.start (duration : Nat) : Timer := .running duration duration

/-- The timer is running (reported by READ-MODULE, R167). -/
def Timer.isRunning : Timer → Bool
  | .stopped => false
  | .running _ _ => true

/-! ## Table Store (Section 1) -/

/-- The sense of a BAND entry (R7). -/
inductive Sense
  | inside
  | outside
deriving DecidableEq, Repr

/-- The test fields of an entry: those of its test kind, the others being absent (R5). -/
inductive Test
  | pattern (mask compare : Word)
  | band (low high : Word) (sense : Sense)
deriving DecidableEq, Repr

/-- Which items of a point are kept in the frame passed up (R9). -/
inductive ForwardPolicy
  | always
  | onChange
  | never
deriving DecidableEq, Repr

/-- A point key, module.point (Conventions, Keys). -/
structure PointKey where
  station : Station
  point   : Fin 32
deriving DecidableEq, Repr

/-- Keys are ordered by module first and then by point (R4). -/
def PointKey.index (k : PointKey) : Nat := k.station.val * 32 + k.point.val

/-- The configuration fields of a point entry (Section 1.2). -/
structure EntryConfig where
  key           : PointKey
  test          : Test
  confirm       : Nat
  cls           : ReportClass
  policy        : ForwardPolicy
  reportReturn  : Bool
  reportInitial : Bool
  urgent        : Bool
  carryPrior    : Bool
deriving DecidableEq, Repr

/-- A verdict (R11). -/
inductive Verdict
  | unknown
  | agree
  | disagree
  | faulted
deriving DecidableEq, Repr

/-- A raw verdict, the result of one test (R29). -/
inductive RawVerdict
  | agree
  | disagree
deriving DecidableEq, Repr

/-- The run state of a point entry (R11). -/
structure RunState where
  verdict   : Verdict
  candidate : Option RawVerdict
  runLength : Nat
  last      : Option Word
  prior     : Option Word
deriving DecidableEq, Repr

/-- A point entry: its configuration and its run state. -/
structure Entry where
  config : EntryConfig
  run    : RunState
deriving DecidableEq, Repr

/-- The state of a listed module (R45). -/
inductive ModuleState
  | unheard
  | live
  | silent
deriving DecidableEq, Repr

/-- A LISTED module slot (R15). An unlisted slot has no fields beyond a stopped timer, and is not in the bank's list. -/
structure Slot where
  station : Station
  limit   : Nat
  cls     : ReportClass
  state   : ModuleState
  timer   : Timer
deriving DecidableEq, Repr

/-- A bank: its Point Table in key order (R4) and the listed slots of its Module Table in station order (R15). -/
structure Bank where
  entries : List Entry
  slots   : List Slot
deriving DecidableEq, Repr

/-- The letters of the banks (R1). -/
inductive BankName
  | a
  | b
deriving DecidableEq, Repr

/-- The bank that is not the named one. -/
def BankName.other : BankName → BankName
  | .a => .b
  | .b => .a

/-- The table activity (R3). -/
inductive Activity
  | idle
  | committing
  | copying
deriving DecidableEq, Repr

/-- The Table Store. -/
structure TableStore where
  bankA      : Bank
  bankB      : Bank
  mark       : BankName
  generation : Word
  activity   : Activity
deriving DecidableEq, Repr

/-! ## Reports (R57) -/

/-- The report kinds (R57). -/
inductive Kind
  | change
  | returned
  | quality
  | silent
  | resumed
  | uplinkFull
  | downlinkFull
  | restarted
  | sweep
  | sweepEnd
deriving DecidableEq, Repr

/-- The key of a report: a point key, a module key or the head key 0 (R57). -/
inductive ReportKey
  | point (key : PointKey)
  | station (station : Station)
  | head
deriving DecidableEq, Repr

/-- The reasons for which an image load fails (R179). -/
inductive LoadFailure
  | noMemory
  | check
  | record
  | range
  | full
  | unlistedModule
deriving DecidableEq, Repr

/-- The start status (R179). -/
inductive StartStatus
  | ok
  | addressDefaulted
  | imageLoaded
  | imageBad (reason : LoadFailure)
  | warmRestart
deriving DecidableEq, Repr

/-- What a RESTARTED report carries beside the common fields (R59). -/
structure RestartBlock where
  status     : StartStatus
  generation : Word
deriving DecidableEq, Repr

/-- The reason of a SWEEP-END report (R108). -/
inductive SweepReason
  | complete
  | stopped
deriving DecidableEq, Repr

/-- What SWEEP and SWEEP-END reports carry beside the common fields (R107, R108). -/
structure SweepBlock where
  number : Byte
  count  : Nat
  reason : Option SweepReason
deriving DecidableEq, Repr

/-- A report record without the fields an outstanding record adds (R57). -/
structure Report where
  kind        : Kind
  cls         : ReportClass
  key         : ReportKey
  verdict     : Option Verdict
  value       : Option Word
  prior       : Option Word
  cycle       : Option Word
  repeatCount : Nat
  lostBefore  : Nat
  urgent      : Bool
  restart     : Option RestartBlock
  sweep       : Option SweepBlock
deriving DecidableEq, Repr

/-- The Report Queue (R60, R62). -/
structure ReportQueue where
  lists  : PerClass (List Report)
  urgent : List Report
  lost   : PerClass Nat
deriving DecidableEq, Repr

/-! ## Report Emitter (Section 5) -/

/-- The transmit state of an outstanding record (R79). -/
inductive TransmitState
  | sending
  | sent
  | flagged
deriving DecidableEq, Repr

/-- An outstanding record: a report with its number, retry count and transmit state (R79). -/
structure Outstanding where
  report   : Report
  number   : Word
  retry    : Nat
  transmit : TransmitState
deriving DecidableEq, Repr

/-- The link condition (R94). -/
inductive Link
  | normal
  | deaf
deriving DecidableEq, Repr

/-- The four settings of a class (R86). -/
structure ClassSetting where
  rank        : Rank
  enabled     : Bool
  creditLimit : Nat
  period      : Nat
deriving DecidableEq, Repr

/-- The Report Emitter. -/
structure Emitter where
  classes     : PerClass ClassSetting
  credits     : PerClass Nat
  refill      : PerClass Timer
  nextNumber  : Word
  outstanding : List Outstanding
  ackTimer    : Timer
  link        : Link
  hailTimer   : Timer
  hailPending : Bool
deriving DecidableEq, Repr

/-! ## Sweep Generator (R103) -/

/-- The sweep state (R103). -/
inductive SweepState
  | idle
  | active
  | stopping
deriving DecidableEq, Repr

/-- The scope of a sweep (R104). -/
inductive Scope
  | all
  | disagree
  | cls (c : ReportClass)
deriving DecidableEq, Repr

/-- How the most recent sweep to end ended (R103). -/
inductive LastSweepEnd
  | none
  | complete
  | stopped
  | ownerChanged
  | restarted
deriving DecidableEq, Repr

/-- An armed mark: a cycle number and a scope (R115). -/
structure MarkArm where
  cycle : Word
  scope : Scope
deriving DecidableEq, Repr

/-- The Sweep Generator. The cursor `none` is "before the first key". -/
structure SweepGenerator where
  state          : SweepState
  scope          : Option Scope
  cursor         : Option PointKey
  number         : Byte
  count          : Nat
  lastEnd        : LastSweepEnd
  arm            : Option MarkArm
  triggerRefused : Bool
  cycle          : Option Word
deriving DecidableEq, Repr

/-! ## Start Controller (Section 10) -/

/-- The part state (R171). -/
inductive PartState
  | scrub
  | loading
  | held
  | running
deriving DecidableEq, Repr

/-- An unlisted policy (R28). -/
inductive UnlistedPolicy
  | forward
  | drop
deriving DecidableEq, Repr

/-- The seven part settings (R168). -/
structure PartSettings where
  ackWait      : Nat
  retryLimit   : Nat
  hailInterval : Nat
  pointPolicy  : UnlistedPolicy
  modulePolicy : UnlistedPolicy
  headClass    : ReportClass
  sweepRank    : Rank
deriving DecidableEq, Repr

/-- What the image reader reads next (R175): nothing, the header, a record (with how many are left), or the CRC. -/
inductive LoadPhase
  | idle
  | header
  | records (left : Nat)
  | crc
deriving DecidableEq, Repr

/-- The image reader (R175 to R177): what it reads next, the CRC over what it has read, the header's owner preset and
RUN flag, and the pending settings. -/
structure Loader where
  phase    : LoadPhase
  crc      : Word
  preset   : Option Node
  run      : Bool
  classes  : PerClass ClassSetting
  settings : PartSettings
deriving DecidableEq, Repr

/-- The Start Controller, with the RESET input it sees and the ALERT line it drives (R180). -/
structure StartController where
  resetHeld        : Bool
  part             : PartState
  ownNode          : Node
  strap            : Strap
  addressDefaulted : Bool
  status           : StartStatus
  restartDue       : Bool
  startAlert       : Bool
  alert            : Bool
  settings         : PartSettings
  loader           : Loader
deriving DecidableEq, Repr

/-! ## Management Unit (Section 9) -/

/-- The status of a response (R152). -/
inductive Status
  | done
  | notReady
  | notOwner
  | busy
  | badRequest
  | unknownRequest
  | noEntry
  | tableFull
  | wrongState
  | staleAck
  | unlistedModule
deriving DecidableEq, Repr

/-- The outcome of an accepted STAGE-ENTRY (R118). -/
inductive StageOutcome
  | added
  | replaced
deriving DecidableEq, Repr

/-- The outcome of an accepted STAGE-MODULE (R120). -/
inductive ListOutcome
  | newlyListed
  | restaged
deriving DecidableEq, Repr

/-- The outcome of an accepted UNSTAGE-MODULE (R121). -/
inductive UnlistOutcome
  | wasListed
  | wasUnlisted
deriving DecidableEq, Repr

/-- The values QUERY-STATUS returns, in the order of R165. The two class bytes are those the part writes beside a
scope of ALL or DISAGREE (log 11). -/
structure StatusReport where
  part            : PartState
  status          : StartStatus
  ownNode         : Node
  owner           : Option Node
  link            : Link
  mark            : BankName
  generation      : Word
  activity        : Activity
  activeCount     : Nat
  stagingCount    : Nat
  queued          : PerClass Nat
  lost            : PerClass Nat
  urgentCount     : Nat
  outstanding     : Nat
  nextNumber      : Word
  sweepState      : SweepState
  scope           : Option Scope
  cursor          : Option PointKey
  sweepNumber     : Byte
  swept           : Nat
  lastEnd         : LastSweepEnd
  arm             : Option MarkArm
  triggerRefused  : Bool
  cycle           : Option Word
  fErrors         : Nat
  fRefused        : Nat
  tErrors         : Nat
  tRefused        : Nat
  scopeClassByte  : Byte
  armClassByte    : Byte
deriving DecidableEq, Repr

/-- The results a response carries (R152 and the requests' own rules). -/
inductive Results
  | none
  | owner (owner : Option Node)
  | stagingCount (count : Nat)
  | staged (outcome : StageOutcome) (count : Nat)
  | listed (outcome : ListOutcome)
  | unlisted (outcome : UnlistOutcome)
  | cleared (entries slots : Nat)
  | copied (entries modules : Nat)
  | committed (generation : Word) (active : BankName)
  | unlistedKey (key : PointKey)
  | discarded (count : Nat)
  | acknowledged (removed left : Nat)
  | outstandingCount (count : Nat)
  | sweepNumber (number : Byte)
  | settings (settings : PartSettings)
  | entry (entry : Entry)
  | slot (station : Station) (slot : Option Slot)
  | status (report : StatusReport)
deriving DecidableEq, Repr

/-- A response: the node it goes to, the request's tag and name byte echoed, its status and results (R151). `final` marks
the final response of a COMMIT or COPY-ACTIVE, which takes the fifth place of the response list (R145). -/
structure Response where
  dest    : Node
  tag     : Byte
  name    : Byte
  status  : Status
  results : Results
  final   : Bool
deriving DecidableEq, Repr

/-- What an entry of the repeat cache holds (R161). -/
inductive CacheContent
  | held (response : Response)
  | inProgress
deriving DecidableEq, Repr

/-- The entry of the repeat cache (R161). -/
structure CacheEntry where
  tag     : Byte
  content : CacheContent
deriving DecidableEq, Repr

/-- The operations that take time (R164). -/
inductive Operation
  | commit
  | copyActive
deriving DecidableEq, Repr

/-- The request in progress (R164). -/
structure InProgress where
  operation : Operation
  tag       : Byte
  source    : Node
deriving DecidableEq, Repr

/-- The Management Unit. -/
structure ManagementUnit where
  owner      : Option Node
  cache      : Option CacheEntry
  inProgress : Option InProgress
deriving DecidableEq, Repr

/-! ## The ports (Section 8) -/

/-- The quality of an item (R133). -/
inductive Quality
  | good
  | fault
deriving DecidableEq, Repr

/-- One item of a POINT frame (R133). -/
structure Item where
  point   : Fin 32
  value   : Word
  quality : Quality
deriving DecidableEq, Repr

/-- A frame of the Up FIFO: a POINT frame rebuilt by the part, whose sequence and source it takes at the grant (R141), or
a field frame passed up as received (R142). -/
inductive UpFrame
  | rebuilt (dest : Node) (origin : Station) (items : List Item)
  | passed (bytes : List Byte)
deriving DecidableEq, Repr

/-- The alternation mark (R147). -/
inductive AlternationMark
  | upNext
  | reportNext
deriving DecidableEq, Repr

/-- The frame the T-port transmitter is sending, and, for a REPORT frame, the number of its record (R80, R148). -/
structure Sending where
  bytes  : List Byte
  report : Option Word
deriving DecidableEq, Repr

/-- The state of the two ports. -/
structure Ports where
  up        : List UpFrame
  down      : List (List Byte)
  responses : List Response
  fErrors   : Nat
  fRefused  : Nat
  tErrors   : Nat
  tRefused  : Nat
  sequence  : Byte
  mark      : AlternationMark
  tSending  : Option Sending
  fSending  : Option (List Byte)
deriving DecidableEq, Repr

/-! ## The whole state -/

/-- The state of the 2480. `freeCount` (log 11) and `pending` are the model's own: the index of the next free value,
and the commands that wait, first in, first out. -/
structure State where
  tables    : TableStore
  queue     : ReportQueue
  emitter   : Emitter
  sweep     : SweepGenerator
  ports     : Ports
  mgmt      : ManagementUnit
  start     : StartController
  freeCount : Nat
  pending   : List Instr
deriving DecidableEq, Repr

/-- The Table Store's state replaced. -/
def State.withTables (s : State) (x : TableStore) : State := { s with tables := x }

/-- The Report Queue's state replaced. -/
def State.withQueue (s : State) (x : ReportQueue) : State := { s with queue := x }

/-- The Report Emitter's state replaced. -/
def State.withEmitter (s : State) (x : Emitter) : State := { s with emitter := x }

/-- The Sweep Generator's state replaced. -/
def State.withSweep (s : State) (x : SweepGenerator) : State := { s with sweep := x }

/-- The ports' state replaced. -/
def State.withPorts (s : State) (x : Ports) : State := { s with ports := x }

/-- The Management Unit's state replaced. -/
def State.withMgmt (s : State) (x : ManagementUnit) : State := { s with mgmt := x }

/-- The Start Controller's state replaced. -/
def State.withStart (s : State) (x : StartController) : State := { s with start := x }

/-- The counter of free values replaced. -/
def State.withFreeCount (s : State) (x : Nat) : State := { s with freeCount := x }

/-- The queue of waiting commands replaced. -/
def State.withPending (s : State) (x : List Instr) : State := { s with pending := x }

/-! ## Reset -/

/-- A bank with no entries and no listed slots (R20). -/
def Bank.empty : Bank := ⟨[], []⟩

/-- The Table Store after pin reset or COLD restart (R20). -/
def TableStore.atReset : TableStore := ⟨.empty, .empty, .a, 0, .idle⟩

/-- The Report Queue after any reset (R78). -/
def ReportQueue.atReset : ReportQueue := ⟨.ofFn fun _ => [], [], .ofFn fun _ => 0⟩

/-- A class's settings after pin reset or COLD restart (R86). -/
def ClassSetting.atReset (c : ReportClass) : ClassSetting := ⟨c, true, 16, 0⟩

/-- The Report Emitter after pin reset or COLD restart (R86, R102). -/
def Emitter.atReset : Emitter :=
  ⟨.ofFn ClassSetting.atReset, .ofFn fun _ => 16, .ofFn fun _ => .stopped, 0, [], .stopped, .normal, .stopped, false⟩

/-- The Sweep Generator after pin reset or COLD restart (R103). -/
def SweepGenerator.atReset : SweepGenerator :=
  ⟨.idle, none, none, 0, 0, .none, none, false, none⟩

/-- The ports after a pin reset (R150). -/
def Ports.atReset : Ports := ⟨[], [], [], 0, 0, 0, 0, 0, .upNext, none, none⟩

/-- The Management Unit after pin reset or COLD restart (R170). -/
def ManagementUnit.atReset : ManagementUnit := ⟨none, none, none⟩

/-- The part settings after pin reset or COLD restart (R168). -/
def PartSettings.atReset : PartSettings := ⟨100, 3, 1000, .forward, .forward, 0, 7⟩

/-- The image reader at rest (log 6). -/
def Loader.atRest : Loader :=
  ⟨.idle, 0xFFFF#16, none, false, .ofFn ClassSetting.atReset, .atReset⟩

/-- The Start Controller right after the end of a pin reset: SCRUB, with the NODE pins read as 0 and START as TRUNK
(DESIGN CHOICE, log 5), the start status and restart notice not yet set by any start (DESIGN CHOICE, log 6). -/
def StartController.atReset : StartController :=
  ⟨false, .scrub, 126, .trunk, true, .ok, false, false, false, .atReset, .atRest⟩

/-- The machine right after a pin reset: the part has entered SCRUB (R171, R172). -/
def State.reset : State :=
  ⟨.atReset, .atReset, .atReset, .atReset, .atReset, .atReset, .atReset, 0, []⟩

/-! ## Outcomes -/

/-- No command stops the machine with a fault: the manual answers every bad frame, request and image with an effect
(R134, R152, R178). Nothing raises one. -/
inductive Fault
deriving DecidableEq, Repr

/-- Why a command has no meaning. -/
inductive Refusal
  /-- Raised by exec's arm of a command that the model gives no meaning; safe. No arm raises it. -/
  | notModelled (mnemonic : String)
deriving DecidableEq, Repr

end Sys2Proof.Machine
end

