-- ==== Sys2Proof/Machine/Operands.lean ====
section
/-!
DEFINITION. Reading what comes with a command: the byte layouts of link frames, requests and configuration images
(Section 11, R184 to R188), and the receive checks of R134. Each reader answers `none` where the layout refuses the bytes.
-/

namespace Sys2Proof.Machine

/-! ## Numbers and the CRC -/

/-- Two bytes, high byte first (R184). -/
def word (high low : Byte) : Word := high ++ low

/-- A 16-bit number as two bytes, high byte first (R184). -/
def wordBytes (w : Word) : List Byte := [w.extractLsb' 8 8, w.extractLsb' 0 8]

/-- One bit of the CRC: polynomial x^16 + x^12 + x^5 + 1, most significant bit first (R185). -/
def crcBit (c : Word) : Word := if c.msb then (c <<< 1) ^^^ 0x1021#16 else c <<< 1

/-- One byte of the CRC (R185). -/
def crcByte (c : Word) (b : Byte) : Word :=
  crcBit (crcBit (crcBit (crcBit (crcBit (crcBit (crcBit (crcBit (c ^^^ (b ++ 0#8)))))))))

/-- The remainder carried on over further bytes. -/
def crcFrom (c : Word) (bytes : List Byte) : Word := bytes.foldl crcByte c

/-- The CRC of a string of bytes: the remainder starts at 65535 and is sent without inversion (R185). -/
def crc (bytes : List Byte) : Word := crcFrom 0xFFFF#16 bytes

/-! ## Small fields -/

/-- A station byte, 1 to 63. -/
def readStation (b : Byte) : Option Station :=
  if h : 1 ≤ b.toNat ∧ b.toNat ≤ 63 then some ⟨b.toNat, by omega⟩ else none

/-- A point index byte, 0 to 31. -/
def readPoint (b : Byte) : Option (Fin 32) :=
  if h : b.toNat < 32 then some ⟨b.toNat, h⟩ else none

/-- A class or rank byte, 0 to 7. -/
def readClass (b : Byte) : Option ReportClass :=
  if h : b.toNat < 8 then some ⟨b.toNat, h⟩ else none

/-- A byte that is 0 or 1 (FORCE, enable). -/
def readFlag (b : Byte) : Option Bool :=
  match b.toNat with
  | 0 => some false
  | 1 => some true
  | _ => none

/-- A point key: module 1 to 63 and point 0 to 31 (R184). -/
def readPointKey (m p : Byte) : Option PointKey :=
  match readStation m, readPoint p with
  | some station, some point => some ⟨station, point⟩
  | _, _ => none

/-- The head key 0 is module byte 0 and point byte 255 (R184). -/
def isHeadKey (m p : Byte) : Bool := m == 0#8 && p == 255#8

/-- A scope: ALL 0, DISAGREE 1 or CLASS 2, and a class byte that is read only for CLASS (R187). -/
def readScope (code cls : Byte) : Option Scope :=
  match code.toNat with
  | 0 => some .all
  | 1 => some .disagree
  | 2 => (readClass cls).map .cls
  | _ => none

/-- An unlisted policy: FORWARD 0, DROP 1 (R187). -/
def readUnlistedPolicy (n : Nat) : UnlistedPolicy := if n = 0 then .forward else .drop

/-! ## Link frames (R133, R134, R185) -/

/-- The quality byte: GOOD 0 or FAULT 1 (R185). -/
def readQuality (b : Byte) : Option Quality :=
  match b.toNat with
  | 0 => some .good
  | 1 => some .fault
  | _ => none

/-- The items of a POINT payload: as many as the count gives, and no byte more (R185). -/
def readItems : Nat → List Byte → Option (List Item)
  | 0, [] => some []
  | n + 1, p :: q :: h :: l :: rest =>
    match readPoint p, readQuality q, readItems n rest with
    | some point, some quality, some items => some (⟨point, word h l, quality⟩ :: items)
    | _, _, _ => none
  | _, _ => none

/-- A POINT payload: origin module 1 to 63 and 1 to 8 items (R134, R185). -/
def readPointPayload : List Byte → Option (Station × List Item)
  | o :: n :: rest =>
    match readStation o, readItems n.toNat rest with
    | some origin, some items => if 1 ≤ n.toNat ∧ n.toNat ≤ 8 then some (origin, items) else none
    | _, _ => none
  | _ => none

/-- What a good frame holds, as far as the part reads it (R133). -/
inductive FrameBody
  | point (origin : Station) (items : List Item)
  | scanMark (cycle : Word)
  | mgmtReq (payload : List Byte)
  | unread
deriving DecidableEq, Repr

/-- A frame that has passed the receive checks (R134). -/
structure LinkFrame where
  dest : Node
  src  : Node
  body : FrameBody
deriving DecidableEq, Repr

/-- The kind and payload checks of R134, by the kind codes of R185: a POINT frame received on the F-port must have its source
as its origin, and a SCAN-MARK exactly one cycle number. -/
def readBody (onFPort : Bool) (src : Node) (kind : Byte) (payload : List Byte) : Option FrameBody :=
  match kind.toNat with
  | 1 =>
    match readPointPayload payload with
    | some (origin, items) =>
      if onFPort && origin.val != src.toNat then none else some (.point origin items)
    | none => none
  | 3 =>
    match payload with
    | [h, l] => some (.scanMark (word h l))
    | _ => none
  | 4 => some (.mgmtReq payload)
  | 2 | 5 | 6 | 7 => some .unread
  | _ => none

/-- The receive checks (R134, R185): payload length 0 to 240 and the size received, the CRC, a source 1 to 126, a kind of the
seven, and the payload checks. The destination is the low seven bits of its byte. -/
def receive (onFPort : Bool) : List Byte → Option LinkFrame
  | d :: s :: k :: q :: n :: rest =>
    if n.toNat ≤ 240 ∧ rest.length = n.toNat + 2 ∧ 1 ≤ s.toNat ∧ s.toNat ≤ 126 ∧
        rest.drop n.toNat = wordBytes (crc (d :: s :: k :: q :: n :: rest.take n.toNat)) then
      match readBody onFPort (s.setWidth 7) k (rest.take n.toNat) with
      | some body => some ⟨d.setWidth 7, s.setWidth 7, body⟩
      | none => none
    else none
  | _ => none

/-! ## Requests (R187) -/

/-- The requests of the catalogue (Section 9.8). -/
inductive RequestName
  | claim
  | yieldOwnership
  | queryStatus
  | readEntry
  | readModule
  | stageEntry
  | unstageEntry
  | stageModule
  | unstageModule
  | clearStaging
  | copyActive
  | commit
  | setClass
  | setPart
  | discardClass
  | ack
  | sweepStart
  | sweepStop
  | armMark
  | disarmMark
  | hold
  | release
  | restart
deriving DecidableEq, Repr

/-- The request name codes (R187). -/
def RequestName.code : RequestName → Byte
  | .claim => 1
  | .yieldOwnership => 2
  | .queryStatus => 3
  | .readEntry => 4
  | .readModule => 5
  | .stageEntry => 6
  | .unstageEntry => 7
  | .stageModule => 8
  | .unstageModule => 9
  | .clearStaging => 10
  | .copyActive => 11
  | .commit => 12
  | .setClass => 13
  | .setPart => 14
  | .discardClass => 15
  | .ack => 16
  | .sweepStart => 17
  | .sweepStop => 18
  | .armMark => 19
  | .disarmMark => 20
  | .hold => 21
  | .release => 22
  | .restart => 23

/-- The request that a name byte names, if it is in the catalogue (R187). -/
def RequestName.ofByte (b : Byte) : Option RequestName :=
  match b.toNat with
  | 1 => some .claim
  | 2 => some .yieldOwnership
  | 3 => some .queryStatus
  | 4 => some .readEntry
  | 5 => some .readModule
  | 6 => some .stageEntry
  | 7 => some .unstageEntry
  | 8 => some .stageModule
  | 9 => some .unstageModule
  | 10 => some .clearStaging
  | 11 => some .copyActive
  | 12 => some .commit
  | 13 => some .setClass
  | 14 => some .setPart
  | 15 => some .discardClass
  | 16 => some .ack
  | 17 => some .sweepStart
  | 18 => some .sweepStop
  | 19 => some .armMark
  | 20 => some .disarmMark
  | 21 => some .hold
  | 22 => some .release
  | 23 => some .restart
  | _ => none

/-- A request as the Management Unit is handed it (R151). -/
structure Request where
  src    : Node
  tag    : Byte
  name   : Byte
  params : List Byte
deriving DecidableEq, Repr

/-- A MGMT-REQ payload; one of fewer than two bytes is read with 0 for each missing byte (R187). -/
def readRequest (src : Node) (payload : List Byte) : Request :=
  ⟨src, payload.getD 0 0, payload.getD 1 0, payload.drop 2⟩

/-- A bank role, ACTIVE 1 or STAGING 2 (R187). -/
inductive BankRole
  | active
  | staging
deriving DecidableEq, Repr

/-- The role byte (R187). -/
def readRole (b : Byte) : Option BankRole :=
  match b.toNat with
  | 1 => some .active
  | 2 => some .staging
  | _ => none

/-- What READ-ENTRY asks for: the entry of a key, or the first entry beyond a key (`none`: before the first key) (R166). -/
inductive ReadMode
  | exact (key : PointKey)
  | next (after : Option PointKey)
deriving DecidableEq, Repr

/-- The mode and key of READ-ENTRY: the head key 0 is accepted in NEXT mode alone (R166). -/
def readMode (mode m p : Byte) : Option ReadMode :=
  match mode.toNat with
  | 0 => (readPointKey m p).map .exact
  | 1 => if isHeadKey m p then some (.next none) else (readPointKey m p).map fun k => .next (some k)
  | _ => none

/-- The test of a point entry: PATTERN 1 with mask and compare, or BAND 2 with low not above high and a sense, which is not
read for PATTERN (R118, R187). -/
def readTest (kind : Byte) (first second : Word) (sense : Byte) : Option Test :=
  match kind.toNat with
  | 1 => some (.pattern first second)
  | 2 =>
    if first.toNat ≤ second.toNat then
      match sense.toNat with
      | 1 => some (.band first second .inside)
      | 2 => some (.band first second .outside)
      | _ => none
    else none
  | _ => none

/-- The forward policy byte (R187). -/
def readForwardPolicy (b : Byte) : Option ForwardPolicy :=
  match b.toNat with
  | 0 => some .always
  | 1 => some .onChange
  | 2 => some .never
  | _ => none

/-- A point entry of twelve bytes (R187), with every range of R118; unlisted flag bits must be 0 (R184). -/
def readEntryConfig : List Byte → Option EntryConfig
  | [m, p, kind, h1, l1, h2, l2, sense, confirm, cls, policy, flags] =>
    match readPointKey m p, readTest kind (word h1 l1) (word h2 l2) sense, readClass cls, readForwardPolicy policy with
    | some key, some test, some c, some pol =>
      if 1 ≤ confirm.toNat ∧ confirm.toNat ≤ 15 ∧ flags.toNat < 16 then
        some
          { key := key, test := test, confirm := confirm.toNat, cls := c, policy := pol
            reportReturn := flags.getLsbD 0, reportInitial := flags.getLsbD 1
            urgent := flags.getLsbD 2, carryPrior := flags.getLsbD 3 }
      else none
    | _, _, _, _ => none
  | _ => none

/-- Station, silence limit (10 to 2550 ms in 10 ms steps) and silence class (R120). -/
def readModuleListing : List Byte → Option (Station × Nat × ReportClass)
  | [st, h, l, cls] =>
    match readStation st, readClass cls with
    | some station, some c =>
      let limit := (word h l).toNat
      if 10 ≤ limit ∧ limit ≤ 2550 ∧ limit % 10 = 0 then some (station, limit, c) else none
    | _, _ => none
  | _ => none

/-- Class, rank, enable, credit limit 1 to 63 and refill period (R86, R88). -/
def readClassSetting : List Byte → Option (ReportClass × ClassSetting)
  | [cls, rank, enable, limit, period] =>
    match readClass cls, readClass rank, readFlag enable with
    | some c, some r, some e =>
      if 1 ≤ limit.toNat ∧ limit.toNat ≤ 63 then some (c, ⟨r, e, limit.toNat, period.toNat⟩) else none
    | _, _, _ => none
  | _ => none

/-- The seven fields of SET-PART, each present or absent (R168), as the numbers they were written with. -/
structure PartFields where
  ackWait      : Option Nat
  retryLimit   : Option Nat
  hailInterval : Option Nat
  pointPolicy  : Option Nat
  modulePolicy : Option Nat
  headClass    : Option Nat
  sweepRank    : Option Nat
deriving DecidableEq, Repr

/-- The length that a SET-PART presence byte gives, itself included; bit 7 is not read (R184, R187). -/
def partLength (presence : Byte) : Nat :=
  1 + (presence.getLsbD 0).toNat * 2 + (presence.getLsbD 1).toNat + (presence.getLsbD 2).toNat * 2 +
    (presence.getLsbD 3).toNat + (presence.getLsbD 4).toNat + (presence.getLsbD 5).toNat + (presence.getLsbD 6).toNat

/-- An optional one-byte number, and the bytes behind it. -/
def field1 (present : Bool) (l : List Byte) : Option Nat × List Byte :=
  if present then (some (l.getD 0 0).toNat, l.drop 1) else (none, l)

/-- An optional two-byte number, and the bytes behind it. -/
def field2 (present : Bool) (l : List Byte) : Option Nat × List Byte :=
  if present then (some (word (l.getD 0 0) (l.getD 1 0)).toNat, l.drop 2) else (none, l)

/-- The present fields behind the presence byte, in the order of the bits (R187). -/
def readPartFields (presence : Byte) (l : List Byte) : PartFields :=
  let f0 := field2 (presence.getLsbD 0) l
  let f1 := field1 (presence.getLsbD 1) f0.2
  let f2 := field2 (presence.getLsbD 2) f1.2
  let f3 := field1 (presence.getLsbD 3) f2.2
  let f4 := field1 (presence.getLsbD 4) f3.2
  let f5 := field1 (presence.getLsbD 5) f4.2
  let f6 := field1 (presence.getLsbD 6) f5.2
  ⟨f0.1, f1.1, f2.1, f3.1, f4.1, f5.1, f6.1⟩

/-- A number within a range and on a step. -/
def onStep (low high step n : Nat) : Bool := decide (low ≤ n) && decide (n ≤ high) && decide (n % step = 0)

/-- Every present field is in its range and on its step (R168). -/
def PartFields.inRange (f : PartFields) : Bool :=
  f.ackWait.all (onStep 5 1275 5) && f.retryLimit.all (onStep 1 7 1) && f.hailInterval.all (onStep 100 25500 100) &&
    f.pointPolicy.all (onStep 0 1 1) && f.modulePolicy.all (onStep 0 1 1) &&
    f.headClass.all (onStep 0 7 1) && f.sweepRank.all (onStep 0 7 1)

/-- Every present field replaces its setting, and the absent fields keep theirs (R168). -/
def PartFields.apply (f : PartFields) (p : PartSettings) : PartSettings :=
  { ackWait := f.ackWait.getD p.ackWait
    retryLimit := f.retryLimit.getD p.retryLimit
    hailInterval := f.hailInterval.getD p.hailInterval
    pointPolicy := (f.pointPolicy.map readUnlistedPolicy).getD p.pointPolicy
    modulePolicy := (f.modulePolicy.map readUnlistedPolicy).getD p.modulePolicy
    headClass := (f.headClass.map (Fin.ofNat 8)).getD p.headClass
    sweepRank := (f.sweepRank.map (Fin.ofNat 8)).getD p.sweepRank }

/-- The parameters of SET-PART, or the content of a PART-SETTING record whose length is right. -/
def readPartParams : List Byte → Option PartFields
  | [] => none
  | presence :: rest =>
    if rest.length + 1 = partLength presence then
      let f := readPartFields presence rest
      if f.inRange then some f else none
    else none

/-! ## The configuration image (R175, R176, R188) -/

/-- The header of an image (R175). -/
structure ImageHeader where
  count  : Nat
  preset : Option Node
  run    : Bool
deriving DecidableEq, Repr

/-- Node byte 0 means none (R175). -/
def readPreset (b : Byte) : Option Node := if b = 0#8 then none else some (b.setWidth 7)

/-- The five header bytes: no answer is NO-MEMORY, a version other than 1 RECORD, a record count outside 1 to 1100 or an owner
preset above 126 RANGE (R175, R188). -/
def readHeader : List Byte → Except LoadFailure ImageHeader
  | version :: h :: l :: preset :: flags :: _ =>
    let count := (word h l).toNat
    if version ≠ 1#8 then .error .record
    else if count < 1 ∨ 1100 < count ∨ 126 < preset.toNat then .error .range
    else .ok ⟨count, readPreset preset, flags.getLsbD 0⟩
  | _ => .error .noMemory

/-- What one image record says (R176). -/
inductive ImageRecord
  | pointEntry (config : EntryConfig)
  | moduleEntry (station : Station) (limit : Nat) (cls : ReportClass)
  | classSetting (cls : ReportClass) (setting : ClassSetting)
  | partSetting (fields : PartFields)
deriving DecidableEq, Repr

/-- The content of a record whose kind and length are right; a field out of range is RANGE (R176). -/
def readRecordContent (kind : Byte) (content : List Byte) : Except LoadFailure ImageRecord :=
  match kind.toNat with
  | 1 =>
    match readEntryConfig content with
    | some c => .ok (.pointEntry c)
    | none => .error .range
  | 2 =>
    match readModuleListing content with
    | some (st, limit, c) => .ok (.moduleEntry st limit c)
    | none => .error .range
  | 3 =>
    match readClassSetting content with
    | some (c, x) => .ok (.classSetting c x)
    | none => .error .range
  | _ =>
    match readPartParams content with
    | some f => .ok (.partSetting f)
    | none => .error .range

/-- The length byte agrees with the record's kind: 12, 4, 5, or, for PART-SETTING, what its presence byte gives (R188). -/
def recordLengthOk (kind : Byte) (length : Nat) (content : List Byte) : Bool :=
  match kind.toNat with
  | 1 => length == 12
  | 2 => length == 4
  | 3 => length == 5
  | _ => length == partLength (content.getD 0 0)

/-- One record: kind, length and content (R188), with the bytes it takes. The memory giving no answer is NO-MEMORY, a kind
that is none of the four or a length byte that is not its kind's is RECORD (R175, R188; log 10). -/
def readRecord : List Byte → Except LoadFailure (ImageRecord × List Byte)
  | [] => .error .noMemory
  | kind :: rest =>
    if kind.toNat < 1 ∨ 4 < kind.toNat then .error .record
    else
      match rest with
      | [] => .error .noMemory
      | n :: content =>
        if kind.toNat = 4 ∧ 1 ≤ n.toNat ∧ content.length = 0 then .error .noMemory
        else if recordLengthOk kind n.toNat content = false then .error .record
        else if content.length < n.toNat then .error .noMemory
        else
          match readRecordContent kind (content.take n.toNat) with
          | .ok r => .ok (r, kind :: n :: content.take n.toNat)
          | .error e => .error e

/-- The CRC that follows the last record, high byte first (R188). -/
def readImageCrc : List Byte → Except LoadFailure Word
  | h :: l :: _ => .ok (word h l)
  | _ => .error .noMemory

end Sys2Proof.Machine
end

