-- ==== Sys2Proof/Machine/Layouts.lean ====
section
/-!
DEFINITION. Writing what the part sends: the byte layouts of link frames, report records, responses and HAIL payloads
(Section 11, R184 to R187).
-/

namespace Sys2Proof.Machine

/-- A number whose range ends at or below 255 (R184). -/
def byteOf (n : Nat) : Byte := BitVec.ofNat 8 n

/-- A number whose range ends above 255, high byte first (R184). -/
def twoBytes (n : Nat) : List Byte := wordBytes (BitVec.ofNat 16 n)

/-- A node as one byte, its top bit 0 (R185). -/
def nodeByte (n : Node) : Byte := n.setWidth 8

/-- A node or none, 0 meaning none (R187). -/
def ownerByte : Option Node → Byte
  | none => 0
  | some n => nodeByte n

/-- The frame kind codes of the frames the part originates (R185). -/
inductive OwnKind
  | point
  | report
  | mgmtRsp
  | hail
deriving DecidableEq, Repr

/-- The kind codes (R185). -/
def OwnKind.code : OwnKind → Byte
  | .point => 1
  | .report => 2
  | .mgmtRsp => 5
  | .hail => 6

/-- A link frame: five-byte header, payload, and the CRC, high byte first (R185). -/
def frameBytes (dest src : Node) (kind : OwnKind) (sequence : Byte) (payload : List Byte) : List Byte :=
  let body := nodeByte dest :: nodeByte src :: kind.code :: sequence :: byteOf payload.length :: payload
  body ++ wordBytes (crc body)

/-! ## POINT payloads (R185) -/

/-- GOOD 0, FAULT 1. -/
def Quality.code : Quality → Byte
  | .good => 0
  | .fault => 1

/-- One item: point index, quality, value. -/
def itemBytes (i : Item) : List Byte := byteOf i.point.val :: i.quality.code :: wordBytes i.value

/-- A POINT payload: origin module, item count, items. -/
def pointPayload (origin : Station) (items : List Item) : List Byte :=
  byteOf origin.val :: byteOf items.length :: items.flatMap itemBytes

/-! ## Keys, scopes, entries (R184, R187) -/

/-- A point key. -/
def pointKeyBytes (k : PointKey) : List Byte := [byteOf k.station.val, byteOf k.point.val]

/-- A key of a report: a module key has point byte 255, the head key module byte 0 and point byte 255. -/
def reportKeyBytes : ReportKey → List Byte
  | .point k => pointKeyBytes k
  | .station m => [byteOf m.val, 255]
  | .head => [0, 255]

/-- A cursor as a key, with the head key 0 for "before the first key". -/
def cursorBytes : Option PointKey → List Byte
  | none => [0, 255]
  | some k => pointKeyBytes k

/-- A scope and its class byte; for ALL and DISAGREE the class byte is the free byte given (log 11). -/
def scopeBytes (free : Byte) : Scope → List Byte
  | .all => [0, free]
  | .disagree => [1, free]
  | .cls c => [2, byteOf c.val]

/-- The test fields: kind, mask or low, compare or high, and the sense, reported 0 for PATTERN. -/
def testBytes : Test → List Byte
  | .pattern mask compare => 1 :: wordBytes mask ++ wordBytes compare ++ [0]
  | .band low high .inside => 2 :: wordBytes low ++ wordBytes high ++ [1]
  | .band low high .outside => 2 :: wordBytes low ++ wordBytes high ++ [2]

/-- The forward policy codes. -/
def ForwardPolicy.code : ForwardPolicy → Byte
  | .always => 0
  | .onChange => 1
  | .never => 2

/-- The weight of a listed bit of a presence or flag byte. -/
def bitWeight (b : Bool) (weight : Nat) : Nat := if b then weight else 0

/-- The flag byte of a point entry. -/
def flagByte (c : EntryConfig) : Byte :=
  byteOf (bitWeight c.reportReturn 1 + bitWeight c.reportInitial 2 + bitWeight c.urgent 4 + bitWeight c.carryPrior 8)

/-- A point entry takes twelve bytes (R187). -/
def entryConfigBytes (c : EntryConfig) : List Byte :=
  pointKeyBytes c.key ++ testBytes c.test ++ [byteOf c.confirm, byteOf c.cls.val, c.policy.code, flagByte c]

/-- The verdict codes (R186). -/
def Verdict.code : Verdict → Byte
  | .unknown => 0
  | .agree => 1
  | .disagree => 2
  | .faulted => 3

/-- The candidate codes (R187). -/
def RawVerdict.code : RawVerdict → Byte
  | .agree => 1
  | .disagree => 2

/-- A field that takes no bytes when it is absent (R184). -/
def optionalBytes {α : Type} (f : α → List Byte) : Option α → List Byte
  | none => []
  | some a => f a

/-- The run state behind the entry of a READ-ENTRY response: presence, verdict, present candidate, run length, present
values (R187). -/
def runStateBytes (r : RunState) : List Byte :=
  byteOf (bitWeight r.candidate.isSome 1 + bitWeight r.last.isSome 2 + bitWeight r.prior.isSome 4) ::
    r.verdict.code :: optionalBytes (fun c => [RawVerdict.code c]) r.candidate ++ [byteOf r.runLength] ++
    optionalBytes wordBytes r.last ++ optionalBytes wordBytes r.prior

/-! ## The report record (R186) -/

/-- The report kind codes. -/
def Kind.code : Kind → Byte
  | .change => 1
  | .returned => 2
  | .quality => 3
  | .silent => 4
  | .resumed => 5
  | .uplinkFull => 6
  | .downlinkFull => 7
  | .restarted => 8
  | .sweep => 9
  | .sweepEnd => 10

/-- The image failure reason codes. -/
def LoadFailure.code : LoadFailure → Byte
  | .noMemory => 1
  | .check => 2
  | .record => 3
  | .range => 4
  | .full => 5
  | .unlistedModule => 6

/-- The start status code and its reason, 0 unless the status is IMAGE-BAD. -/
def startStatusBytes : StartStatus → List Byte
  | .ok => [0, 0]
  | .addressDefaulted => [1, 0]
  | .imageLoaded => [2, 0]
  | .imageBad r => [3, r.code]
  | .warmRestart => [4, 0]

/-- The sweep block's reason: 0 in a SWEEP report, COMPLETE 1 or STOPPED 2 in a SWEEP-END. -/
def sweepReasonByte : Option SweepReason → Byte
  | none => 0
  | some .complete => 1
  | some .stopped => 2

/-- The restart block. -/
def restartBytes (b : RestartBlock) : List Byte := startStatusBytes b.status ++ wordBytes b.generation

/-- The sweep block. -/
def sweepBytes (b : SweepBlock) : List Byte := b.number :: twoBytes b.count ++ [sweepReasonByte b.reason]

/-- The presence byte of a report record. -/
def reportPresence (r : Report) : Byte :=
  byteOf (bitWeight r.verdict.isSome 1 + bitWeight r.value.isSome 2 + bitWeight r.prior.isSome 4 +
    bitWeight r.cycle.isSome 8 + bitWeight r.urgent 16 + bitWeight r.restart.isSome 32 + bitWeight r.sweep.isSome 64)

/-- The payload of a REPORT frame: the ten-byte fixed part and the fields its presence byte announces. -/
def reportPayload (o : Outstanding) : List Byte :=
  o.report.kind.code :: byteOf o.report.cls.val :: reportKeyBytes o.report.key ++
    [reportPresence o.report, byteOf o.report.repeatCount, byteOf o.report.lostBefore, byteOf o.retry] ++
    wordBytes o.number ++
    optionalBytes (fun v => [Verdict.code v]) o.report.verdict ++ optionalBytes wordBytes o.report.value ++
    optionalBytes wordBytes o.report.prior ++ optionalBytes wordBytes o.report.cycle ++
    optionalBytes restartBytes o.report.restart ++ optionalBytes sweepBytes o.report.sweep

/-- The payload of a HAIL frame: oldest outstanding report number, outstanding count (R95, R185). -/
def hailPayload (oldest : Word) (count : Nat) : List Byte := wordBytes oldest ++ [byteOf count]

/-! ## Responses (R187) -/

/-- The status codes. -/
def Status.code : Status → Byte
  | .done => 0
  | .notReady => 1
  | .notOwner => 2
  | .busy => 3
  | .badRequest => 4
  | .unknownRequest => 5
  | .noEntry => 6
  | .tableFull => 7
  | .wrongState => 8
  | .staleAck => 9
  | .unlistedModule => 10

/-- A 0, B 1. -/
def BankName.code : BankName → Byte
  | .a => 0
  | .b => 1

/-- The part state codes; QUERY-STATUS is answered in HELD and RUNNING alone (R165). -/
def PartState.code : PartState → Byte
  | .scrub => 0
  | .loading => 1
  | .held => 2
  | .running => 3

/-- NORMAL 0, DEAF 1. -/
def Link.code : Link → Byte
  | .normal => 0
  | .deaf => 1

/-- IDLE 0, COMMITTING 1, COPYING 2. -/
def Activity.code : Activity → Byte
  | .idle => 0
  | .committing => 1
  | .copying => 2

/-- IDLE 0, ACTIVE 1, STOPPING 2. -/
def SweepState.code : SweepState → Byte
  | .idle => 0
  | .active => 1
  | .stopping => 2

/-- NONE 0, COMPLETE 1, STOPPED 2, OWNER-CHANGED 3, RESTARTED 4. -/
def LastSweepEnd.code : LastSweepEnd → Byte
  | .none => 0
  | .complete => 1
  | .stopped => 2
  | .ownerChanged => 3
  | .restarted => 4

/-- UNHEARD 0, LIVE 1, SILENT 2. -/
def ModuleState.code : ModuleState → Byte
  | .unheard => 0
  | .live => 1
  | .silent => 2

/-- FORWARD 0, DROP 1. -/
def UnlistedPolicy.code : UnlistedPolicy → Byte
  | .forward => 0
  | .drop => 1

/-- A bit as a byte. -/
def boolByte (b : Bool) : Byte := if b then 1 else 0

/-- The DONE results of SET-PART: a presence byte of 127, then all seven settings. -/
def settingsBytes (p : PartSettings) : List Byte :=
  127 :: twoBytes p.ackWait ++ [byteOf p.retryLimit] ++ twoBytes p.hailInterval ++
    [p.pointPolicy.code, p.modulePolicy.code, byteOf p.headClass.val, byteOf p.sweepRank.val]

/-- The DONE results of READ-MODULE: station and listing, and for a listed slot its fields. -/
def slotBytes (station : Station) : Option Slot → List Byte
  | none => [byteOf station.val, 0]
  | some x =>
    byteOf station.val :: 1 :: twoBytes x.limit ++ [byteOf x.cls.val, x.state.code, boolByte x.timer.isRunning]

/-- An armed mark: its cycle and its scope. -/
def armBytes (free : Byte) (a : MarkArm) : List Byte := wordBytes a.cycle ++ scopeBytes free a.scope

/-- The DONE results of QUERY-STATUS: the values of R165 in the order of its table, a presence byte ahead of the sweep
group. -/
def statusBytes (r : StatusReport) : List Byte :=
  r.part.code :: startStatusBytes r.status ++ [nodeByte r.ownNode, ownerByte r.owner, r.link.code] ++
    (r.mark.code :: wordBytes r.generation ++ [r.activity.code] ++ twoBytes r.activeCount ++ twoBytes r.stagingCount) ++
    (r.queued.toList.flatMap twoBytes ++ r.lost.toList.map byteOf ++
      [byteOf r.urgentCount, byteOf r.outstanding] ++ wordBytes r.nextNumber) ++
    (byteOf (bitWeight r.scope.isSome 1 + bitWeight r.arm.isSome 2 + bitWeight r.cycle.isSome 4) ::
      r.sweepState.code :: optionalBytes (scopeBytes r.scopeClassByte) r.scope ++ cursorBytes r.cursor ++
      [r.sweepNumber] ++ twoBytes r.swept ++ [r.lastEnd.code] ++ optionalBytes (armBytes r.armClassByte) r.arm ++
      [boolByte r.triggerRefused] ++ optionalBytes wordBytes r.cycle) ++
    (twoBytes r.fErrors ++ twoBytes r.fRefused ++ twoBytes r.tErrors ++ twoBytes r.tRefused)

/-- The outcome codes: ADDED 0, REPLACED 1. -/
def StageOutcome.code : StageOutcome → Byte
  | .added => 0
  | .replaced => 1

/-- NEWLY-LISTED 0, RESTAGED 1. -/
def ListOutcome.code : ListOutcome → Byte
  | .newlyListed => 0
  | .restaged => 1

/-- WAS-LISTED 0, WAS-UNLISTED 1. -/
def UnlistOutcome.code : UnlistOutcome → Byte
  | .wasListed => 0
  | .wasUnlisted => 1

/-- The results of a response, in the order in which the request's rule lists them (R187). -/
def Results.bytes : Results → List Byte
  | .none => []
  | .owner o => [ownerByte o]
  | .stagingCount n => twoBytes n
  | .staged o n => o.code :: twoBytes n
  | .listed o => [o.code]
  | .unlisted o => [o.code]
  | .cleared entries slots => twoBytes entries ++ [byteOf slots]
  | .copied entries modules => twoBytes entries ++ [byteOf modules]
  | .committed generation active => wordBytes generation ++ [active.code]
  | .unlistedKey k => pointKeyBytes k
  | .discarded n => twoBytes n
  | .acknowledged removed left => [byteOf removed, byteOf left]
  | .outstandingCount n => [byteOf n]
  | .sweepNumber n => [n]
  | .settings p => settingsBytes p
  | .entry e => entryConfigBytes e.config ++ runStateBytes e.run
  | .slot station x => slotBytes station x
  | .status r => statusBytes r

/-- A MGMT-RSP payload: tag and name as received, status, results (R187). -/
def responsePayload (r : Response) : List Byte := r.tag :: r.name :: r.status.code :: r.results.bytes

end Sys2Proof.Machine
end

