-- ==== Sys2Proof/Machine/Table.lean ====
section
/-!
DEFINITION. Operations on the two banks (Sections 1 and 7): lookups, adding, replacing and removing entries and slots in the
canonical form (keys strictly rising), the three grades in which run state is reduced (R13), and the transfer and swap of a
commit (R126 to R128).
-/

namespace Sys2Proof.Machine

/-! ## Lists kept in the order of a key -/

/-- The keys of a list rise strictly: the canonical form of a bank's entries (R4) and slots. -/
abbrev Rising {α : Type} (key : α → Nat) (l : List α) : Prop := l.Pairwise fun x y => key x < key y

/-- A member joins the list at its place in key order, or replaces the one of the same key (R4). -/
def insertBy {α : Type} (key : α → Nat) (a : α) : List α → List α
  | [] => [a]
  | x :: xs =>
    if key a < key x then a :: x :: xs
    else if key a = key x then a :: xs
    else x :: insertBy key a xs

/-! ## Entries -/

/-- The place of an entry in key order. -/
def Entry.index (e : Entry) : Nat := e.config.key.index

/-- The entry belongs to a module. -/
def Entry.ofStation (m : Station) (e : Entry) : Bool := decide (e.config.key.station = m)

/-- Point lookup (R18): the entry with a key, or absent. -/
def Bank.entry? (b : Bank) (k : PointKey) : Option Entry := b.entries.find? fun e => decide (e.config.key = k)

/-- Module lookup (R18): the slot of a station, if it is listed. -/
def Bank.slot? (b : Bank) (m : Station) : Option Slot := b.slots.find? fun x => decide (x.station = m)

/-- The module is listed in the bank. -/
def Bank.lists (b : Bank) (m : Station) : Bool := (b.slot? m).isSome

/-- A key lies beyond a cursor; every key lies beyond "before the first key" (R18). -/
def beyond (cursor : Option PointKey) (k : PointKey) : Bool :=
  match cursor with
  | none => true
  | some c => decide (c.index < k.index)

/-- Next-key lookup (R18): the first entry in key order whose key is beyond the cursor and which is in scope. -/
def Bank.nextEntry (b : Bank) (cursor : Option PointKey) (inScope : Entry → Bool) : Option Entry :=
  b.entries.find? fun e => beyond cursor e.config.key && inScope e

/-- An entry joins the bank or replaces the entry of its key. -/
def Bank.putEntry (b : Bank) (e : Entry) : Bank := { b with entries := insertBy Entry.index e b.entries }

/-- The entry of a key leaves the bank, the others keeping their order (R119). -/
def Bank.dropEntry (b : Bank) (k : PointKey) : Bank :=
  { b with entries := b.entries.filter fun e => !decide (e.config.key = k) }

/-- Every entry's run state rewritten. -/
def Bank.mapRuns (b : Bank) (f : Entry → RunState) : Bank :=
  { b with entries := b.entries.map fun e => { e with run := f e } }

/-- The run state of one entry replaced. -/
def Bank.setRun (b : Bank) (k : PointKey) (r : RunState) : Bank :=
  b.mapRuns fun e => if e.config.key = k then r else e.run

/-! ## Slots -/

/-- The place of a slot in station order. -/
def Slot.index (x : Slot) : Nat := x.station.val

/-- A slot is listed, or listed afresh (R15). -/
def Bank.putSlot (b : Bank) (x : Slot) : Bank := { b with slots := insertBy Slot.index x b.slots }

/-- A slot becomes unlisted (R15). -/
def Bank.dropSlot (b : Bank) (m : Station) : Bank :=
  { b with slots := b.slots.filter fun x => !decide (x.station = m) }

/-- The state and timer of every listed slot rewritten. -/
def Bank.mapSlots (b : Bank) (f : Slot → ModuleState × Timer) : Bank :=
  { b with slots := b.slots.map fun x => { x with state := (f x).1, timer := (f x).2 } }

/-- The state and timer of one slot replaced. -/
def Bank.setSlot (b : Bank) (m : Station) (st : ModuleState) (t : Timer) : Bank :=
  b.mapSlots fun x => if x.station = m then (st, t) else (x.state, x.timer)

/-- Every silence timer of the bank stops, the states staying as they stood (R16, R52). -/
def Bank.stopTimers (b : Bank) : Bank := b.mapSlots fun x => (x.state, .stopped)

/-- Supervision begins afresh: every listed slot UNHEARD, its timer started with its limit (R53). -/
def Bank.superviseAfresh (b : Bank) : Bank := b.mapSlots fun x => (.unheard, .start x.limit)

/-- Every listed slot UNHEARD with its timer stopped (R21, R55). -/
def Bank.unhear (b : Bank) : Bank := b.mapSlots fun _ => (.unheard, .stopped)

/-! ## Run state (R13) -/

/-- Debounce run cleared: the candidate absent and the run length 0. -/
def RunState.debounceCleared (r : RunState) : RunState := { r with candidate := none, runLength := 0 }

/-- Run state cleared: UNKNOWN with no run, the values kept. -/
def RunState.cleared (r : RunState) : RunState := { r with verdict := .unknown, candidate := none, runLength := 0 }

/-- Run state emptied: UNKNOWN with no run and no values. -/
def RunState.emptied : RunState := ⟨.unknown, none, 0, none, none⟩

/-- The run state of every entry of the bank cleared. -/
def Bank.clearRuns (b : Bank) : Bank := b.mapRuns fun e => e.run.cleared

/-- The debounce run of every entry of a module cleared (R49). -/
def Bank.clearDebounce (b : Bank) (m : Station) : Bank :=
  b.mapRuns fun e => if e.ofStation m then e.run.debounceCleared else e.run

/-! ## The two banks (R1, R2) -/

/-- The bank of a letter. -/
def TableStore.bank (t : TableStore) : BankName → Bank
  | .a => t.bankA
  | .b => t.bankB

/-- The bank of a letter replaced. -/
def TableStore.setBank (t : TableStore) (n : BankName) (b : Bank) : TableStore :=
  match n with
  | .a => { t with bankA := b }
  | .b => { t with bankB := b }

/-- The ACTIVE bank is the one the mark names. -/
def TableStore.active (t : TableStore) : Bank := t.bank t.mark

/-- The STAGING bank is the other one. -/
def TableStore.staging (t : TableStore) : Bank := t.bank t.mark.other

/-- The ACTIVE bank replaced. -/
def TableStore.setActive (t : TableStore) (b : Bank) : TableStore := t.setBank t.mark b

/-- The STAGING bank replaced. -/
def TableStore.setStaging (t : TableStore) (b : Bank) : TableStore := t.setBank t.mark.other b

/-- Both banks rewritten. -/
def TableStore.mapBanks (t : TableStore) (f : Bank → Bank) : TableStore :=
  { t with bankA := f t.bankA, bankB := f t.bankB }

/-! ## Copy and commit -/

/-- The copy of a configuration: entries with their run state emptied, slots UNHEARD with their timers stopped (R123). -/
def Bank.copied (b : Bank) : Bank := (b.mapRuns fun _ => .emptied).unhear

/-- The check of a commit (R125): the lowest key, in key order, of an entry whose module is unlisted in the bank. -/
def Bank.firstUnlisted (b : Bank) : Option PointKey :=
  (b.entries.find? fun e => !b.lists e.config.key.station).map fun e => e.config.key

/-- A run length that would not be below the receiving entry's confirm count is set to 0 with the candidate absent (R12). -/
def RunState.fitted (confirm : Nat) (r : RunState) : RunState := if r.runLength < confirm then r else r.debounceCleared

/-- The run state a staged entry takes at a commit (R126): the same-key ACTIVE entry's if the test fields are identical,
emptied otherwise. -/
def transferredRun (active : Bank) (e : Entry) : RunState :=
  match active.entry? e.config.key with
  | some a => if a.config.test = e.config.test then a.run.fitted e.config.confirm else .emptied
  | none => .emptied

/-- The state and timer a staged slot takes at a commit (R54, R127): the ACTIVE slot's if the module is listed there; otherwise
UNHEARD, with its timer started if the part is (or becomes) RUNNING. -/
def transferredSlot (active : Bank) (running : Bool) (x : Slot) : ModuleState × Timer :=
  match active.slot? x.station with
  | some a => (a.state, a.timer)
  | none => (.unheard, if running then .start x.limit else .stopped)

/-- The bank that a commit makes ACTIVE (R126, R127). -/
def Bank.transferred (active staging : Bank) (running : Bool) : Bank :=
  (staging.mapRuns (transferredRun active)).mapSlots (transferredSlot active running)

/-- Transfer and swap in one event (R126 to R128): the bank just written becomes ACTIVE, the former ACTIVE bank STAGING with
its timers stopped, the generation is incremented and the activity is IDLE. -/
def TableStore.commit (t : TableStore) (running : Bool) : TableStore :=
  let swapped := (t.setStaging (t.active.transferred t.staging running)).setActive t.active.stopTimers
  { swapped with mark := t.mark.other, generation := t.generation + 1, activity := .idle }

/-- Every entry and slot of the STAGING bank removed (R122, R178). -/
def TableStore.clearStaging (t : TableStore) : TableStore := t.setStaging .empty

/-- An entry written into the STAGING bank with its run state emptied (R14, R118). -/
def TableStore.stageEntry (t : TableStore) (c : EntryConfig) : TableStore :=
  t.setStaging (t.staging.putEntry ⟨c, .emptied⟩)

/-- The STAGING bank has room for an entry of the key: the key is present, or fewer than 512 entries are held (R4). -/
def TableStore.hasRoom (t : TableStore) (k : PointKey) : Bool :=
  (t.staging.entry? k).isSome || decide (t.staging.entries.length < Config.tableCapacity)

/-- A STAGING slot listed with a limit and a class, UNHEARD with its timer stopped (R15, R120). -/
def TableStore.stageModule (t : TableStore) (m : Station) (limit : Nat) (cls : ReportClass) : TableStore :=
  t.setStaging (t.staging.putSlot ⟨m, limit, cls, .unheard, .stopped⟩)

end Sys2Proof.Machine
end

