-- ==== Sys2Proof/Machine/Evaluate.lean ====
section
/-!
DEFINITION. The Point Evaluator (Section 2): the tests, the debounce run, the verdict transitions and their reports, and the
keep decision, item by item over one POINT frame; and the reports of the Module Supervisor (R50) and the head reports (R59).
-/

namespace Sys2Proof.Machine

/-- A report handed to the Report Queue, and whether it asks for urgent placement (R39, R63). -/
structure Claim where
  report : Report
  urgent : Bool
deriving DecidableEq, Repr

/-! ## Tests and debounce -/

/-- The test agrees with a value: PATTERN by the bits the mask selects (R6), BAND by bounds that belong to the band (R7). -/
def Test.agrees : Test → Word → Bool
  | .pattern mask compare, v => decide (v &&& mask = compare &&& mask)
  | .band low high .inside, v => decide (low.toNat ≤ v.toNat) && decide (v.toNat ≤ high.toNat)
  | .band low high .outside, v => decide (v.toNat < low.toNat) || decide (high.toNat < v.toNat)

/-- The raw verdict of a value (R29). -/
def Test.raw (t : Test) (v : Word) : RawVerdict := if t.agrees v then .agree else .disagree

/-- A raw verdict as a verdict. -/
def RawVerdict.toVerdict : RawVerdict → Verdict
  | .agree => .agree
  | .disagree => .disagree

/-- A GOOD item first takes an entry out of FAULTED: UNKNOWN with no run (R31). -/
def RunState.leaveFault (r : RunState) : RunState := if r.verdict = .faulted then r.cleared else r

/-- The run length after an item of a raw verdict that differs from the verdict (R32). -/
def RunState.advanced (r : RunState) (v : RawVerdict) : Nat := if r.candidate = some v then r.runLength + 1 else 1

/-- A verdict transition of R36: from, to. -/
structure Transition where
  before : Verdict
  after  : Verdict
deriving DecidableEq, Repr

/-- The two values a GOOD item writes (R34): the last value always, the prior value when it upholds the verdict AGREE. -/
def RunState.recorded (r : RunState) (raw : RawVerdict) (v : Word) : RunState :=
  { r with last := some v, prior := if r.verdict = .agree ∧ raw = .agree then some v else r.prior }

/-- The debounce of one tested item (R32, R33): the run state after it, and the transition it took, if any. -/
def RunState.debounce (r : RunState) (confirm : Nat) (raw : RawVerdict) : RunState × Option Transition :=
  if raw.toVerdict = r.verdict then (r.debounceCleared, none)
  else if r.advanced raw < confirm then
    ({ r with candidate := some raw, runLength := r.advanced raw }, none)
  else
    ({ r with verdict := raw.toVerdict, candidate := none, runLength := 0 }, some ⟨r.verdict, raw.toVerdict⟩)

/-- A GOOD item evaluated against an entry (R29, R31 to R34). -/
def evaluateGood (e : Entry) (v : Word) : RunState × Option Transition :=
  ((e.run.leaveFault).recorded (e.config.test.raw v) v).debounce e.config.confirm (e.config.test.raw v)

/-- A FAULT item evaluated against an entry (R30). -/
def evaluateFault (e : Entry) : RunState × Option Transition :=
  if e.run.verdict = .faulted then (e.run.debounceCleared, none)
  else ({ e.run.debounceCleared with verdict := .faulted }, some ⟨e.run.verdict, .faulted⟩)

/-- One item evaluated against its entry. -/
def evaluateItem (e : Entry) (i : Item) : RunState × Option Transition :=
  match i.quality with
  | .good => evaluateGood e i.value
  | .fault => evaluateFault e

/-! ## Reports -/

/-- A report as its raiser gives it: repeat count 1, lost-before 0, no urgent mark (R58). -/
def newReport (kind : Kind) (cls : ReportClass) (key : ReportKey) (cycle : Option Word) : Report :=
  { kind := kind, cls := cls, key := key, verdict := none, value := none, prior := none, cycle := cycle
    repeatCount := 1, lostBefore := 0, urgent := false, restart := none, sweep := none }

/-- A CHANGE report (R37). -/
def changeReport (e : Entry) (v : Word) (cycle : Option Word) : Report :=
  { newReport .change e.config.cls (.point e.config.key) cycle with
    verdict := some .disagree, value := some v, prior := if e.config.carryPrior then e.run.prior else none }

/-- A RETURN report (R37). -/
def returnReport (e : Entry) (v : Word) (cycle : Option Word) : Report :=
  { newReport .returned e.config.cls (.point e.config.key) cycle with verdict := some .agree, value := some v }

/-- A QUALITY report (R37). -/
def qualityReport (e : Entry) (cycle : Option Word) : Report :=
  { newReport .quality e.config.cls (.point e.config.key) cycle with verdict := some .faulted }

/-- The report a transition raises (R36, R10), with the placement it asks for (R39). -/
def transitionClaim (e : Entry) (v : Word) (cycle : Option Word) (t : Transition) : Option Claim :=
  match t.before, t.after with
  | _, .faulted => some ⟨qualityReport e cycle, e.config.urgent⟩
  | .unknown, .disagree => if e.config.reportInitial then some ⟨changeReport e v cycle, e.config.urgent⟩ else none
  | .agree, .disagree => some ⟨changeReport e v cycle, e.config.urgent⟩
  | .disagree, .agree => if e.config.reportReturn then some ⟨returnReport e v cycle, false⟩ else none
  | _, _ => none

/-- A SILENT or RESUMED report of a module, with the slot's silence class (R50). -/
def moduleReport (kind : Kind) (x : Slot) (cycle : Option Word) : Report :=
  newReport kind x.cls (.station x.station) cycle

/-- A head report: head class, head key 0 (R59). -/
def headReport (kind : Kind) (headClass : ReportClass) (cycle : Option Word) : Report :=
  newReport kind headClass .head cycle

/-! ## A frame -/

/-- The item is kept by its entry's forward policy (R40). -/
def ForwardPolicy.keeps (p : ForwardPolicy) (t : Option Transition) : Bool :=
  match p with
  | .always => true
  | .onChange => t.isSome
  | .never => false

/-- What the evaluation of a frame's items has done so far: the ACTIVE bank, the reports in item order, the kept items. -/
structure Evaluation where
  bank   : Bank
  claims : List Claim
  kept   : List Item
deriving DecidableEq, Repr

/-- One item in its place in the frame (R26, R27): evaluated against its entry, or dealt with by the unlisted-point
policy. -/
def Evaluation.item (origin : Station) (policy : UnlistedPolicy) (cycle : Option Word) (x : Evaluation) (i : Item) :
    Evaluation :=
  match x.bank.entry? ⟨origin, i.point⟩ with
  | none => if policy = .forward then { x with kept := x.kept ++ [i] } else x
  | some e =>
    let (r, t) := evaluateItem e i
    { bank := x.bank.setRun e.config.key r
      claims := x.claims ++ (t.bind (transitionClaim { e with run := r } i.value cycle)).toList
      kept := if e.config.policy.keeps t then x.kept ++ [i] else x.kept }

/-- The items of a frame from a listed module, in frame order (R22, R26). -/
def evaluateItems (origin : Station) (policy : UnlistedPolicy) (cycle : Option Word) (bank : Bank) (items : List Item) :
    Evaluation :=
  items.foldl (Evaluation.item origin policy cycle) ⟨bank, [], []⟩

end Sys2Proof.Machine
end

