-- ==== Sys2Proof/Machine/Queue.lean ====
section
/-!
DEFINITION. The Report Queue (Section 4): coalescing, placement, the full-queue rule, taking and discarding, and the return
after an owner change. Each function is one claim on the queue, applied whole (R63).
-/

namespace Sys2Proof.Machine

/-- Class ranks as the full-queue rule compares them: the higher rank number is worse, and of equal ranks the higher class
number (R68). -/
def worse (classes : PerClass ClassSetting) (c d : ReportClass) : Bool :=
  decide ((classes.get d).rank < (classes.get c).rank) || (decide ((classes.get c).rank = (classes.get d).rank) && decide (d < c))

/-- The number of records in the class lists together (R60). -/
def ReportQueue.pooled (q : ReportQueue) : Nat := (q.lists.toList.map List.length).sum

/-- Every record unsent: the urgent list and the class lists. -/
def ReportQueue.unsent (q : ReportQueue) : List Report := q.urgent ++ q.lists.toList.flatten

/-- Two records have the same key and the same kind (R64). -/
def Report.matches (r x : Report) : Bool := decide (x.key = r.key) && decide (x.kind = r.kind)

/-- An unsent record matches the report (R64). -/
def ReportQueue.holds (q : ReportQueue) (r : Report) : Bool := q.unsent.any r.matches

/-- Every unsent record rewritten where it stands. -/
def ReportQueue.mapRecords (q : ReportQueue) (f : Report → Report) : ReportQueue :=
  { q with lists := .ofFn fun c => (q.lists.get c).map f, urgent := q.urgent.map f }

/-- The unsent record `x` after the new report `r` has been coalesced into it (R65). -/
def Report.coalesced (r x : Report) : Report :=
  { x with
    value := r.value, verdict := r.verdict, cycle := r.cycle, restart := r.restart
    repeatCount := saturate Config.countMax (x.repeatCount + 1) }

/-- The new report is coalesced into the unsent record it matches (R64: there is at most one, log 16). -/
def ReportQueue.coalesce (q : ReportQueue) (r : Report) : ReportQueue :=
  q.mapRecords fun x => if r.matches x then r.coalesced x else x

/-- One class list replaced. -/
def ReportQueue.setList (q : ReportQueue) (c : ReportClass) (l : List Report) : ReportQueue :=
  { q with lists := q.lists.set c l }

/-- A class's lost count incremented, saturating at 255 (R62). -/
def ReportQueue.countLost (q : ReportQueue) (c : ReportClass) : ReportQueue :=
  { q with lost := q.lost.set c (saturate Config.countMax (q.lost.get c + 1)) }

/-- The worst-ranked class list that is not empty (R68). -/
def ReportQueue.worst (q : ReportQueue) (classes : PerClass ClassSetting) : Option ReportClass :=
  (allClasses.filter fun c => !(q.lists.get c).isEmpty).foldl
    (fun best c =>
      match best with
      | none => some c
      | some b => if worse classes c b then some c else some b)
    none

/-- The oldest record of a class list, its front, is evicted and counted as lost (R68). -/
def ReportQueue.evict (q : ReportQueue) (c : ReportClass) : ReportQueue :=
  (q.setList c (q.lists.get c).tail).countLost c

/-- The report joins its class list, at the front or at the back, with urgent mark absent (R66, R67). -/
def ReportQueue.join (q : ReportQueue) (r : Report) (front : Bool) : ReportQueue :=
  let x := { r with urgent := false }
  q.setList r.cls (if front then x :: q.lists.get r.cls else q.lists.get r.cls ++ [x])

/-- Placement in a class list, with the full-queue rule when 256 records are held (R66 to R68). -/
def ReportQueue.place (q : ReportQueue) (classes : PerClass ClassSetting) (r : Report) (front : Bool) : ReportQueue :=
  if q.pooled < Config.poolCapacity then q.join r front
  else
    match q.worst classes with
    | some w => if worse classes w r.cls then (q.evict w).join r front else q.countLost r.cls
    | none => q.countLost r.cls

/-- A report is added (R64 to R68): coalesced, or placed urgently if it asks for that and the urgent list has room, or placed
in its class list (at the front if it overflowed the urgent list). -/
def ReportQueue.add (q : ReportQueue) (classes : PerClass ClassSetting) (c : Claim) : ReportQueue :=
  if q.holds c.report then q.coalesce c.report
  else if c.urgent then
    if q.urgent.length < Config.urgentCapacity then { q with urgent := q.urgent ++ [{ c.report with urgent := true }] }
    else q.place classes c.report true
  else q.place classes c.report false

/-- Claims applied one after another, in the order given (R63). -/
def ReportQueue.addAll (q : ReportQueue) (classes : PerClass ClassSetting) (cs : List Claim) : ReportQueue :=
  cs.foldl (fun q c => q.add classes c) q

/-- A class's lost count handed over and set to 0 (R70). -/
def ReportQueue.clearLost (q : ReportQueue) (c : ReportClass) : ReportQueue := { q with lost := q.lost.set c 0 }

/-- The front record of the urgent list taken for its first emission (R70). -/
def ReportQueue.takeUrgent (q : ReportQueue) (c : ReportClass) : ReportQueue :=
  { q with urgent := q.urgent.tail }.clearLost c

/-- The front record of a class list taken for its first emission (R70). -/
def ReportQueue.takeClass (q : ReportQueue) (c : ReportClass) : ReportQueue :=
  (q.setList c (q.lists.get c).tail).clearLost c

/-- Every record of a class list removed, uncounted (R71). -/
def ReportQueue.discard (q : ReportQueue) (c : ReportClass) : ReportQueue := q.setList c []

/-! ## Return after an owner change (R73 to R75) -/

/-- SWEEP and SWEEP-END records are not returned (R73). -/
def Report.isSweep (r : Report) : Bool :=
  match r.kind with
  | .sweep | .sweepEnd => true
  | _ => false

/-- The record `x` after the returned record `r` has been merged into it (R73). -/
def Report.merged (r x : Report) : Report :=
  { x with
    repeatCount := saturate Config.countMax (x.repeatCount + r.repeatCount)
    lostBefore := if r.lostBefore ≠ 0 then r.lostBefore else x.lostBefore }

/-- The merging of returned records, the newest first (R73): what has become of the queue, and the survivors so far, oldest
first. -/
def mergeReturned : List Report → ReportQueue → List Report → ReportQueue × List Report
  | [], q, kept => (q, kept)
  | r :: rs, q, kept =>
    if q.holds r then
      mergeReturned rs (q.mapRecords fun x => if r.matches x then r.merged x else x) kept
    else if kept.any r.matches then
      mergeReturned rs q (kept.map fun x => if r.matches x then r.merged x else x)
    else mergeReturned rs q (r :: kept)

/-- The survivors, oldest first, divided into those that take the free places of the urgent list and those that go to their
class lists, an urgent record beyond the free places losing its mark (R74). -/
def divideReturned : Nat → List Report → List Report × List Report
  | _, [] => ([], [])
  | free, r :: rs =>
    if r.urgent then
      match free with
      | 0 =>
        let d := divideReturned 0 rs
        (d.1, { r with urgent := false } :: d.2)
      | n + 1 =>
        let d := divideReturned n rs
        (r :: d.1, d.2)
    else
      let d := divideReturned free rs
      (d.1, r :: d.2)

/-- The survivors placed ahead of the records already there (R74). -/
def ReportQueue.placeReturned (q : ReportQueue) (kept : List Report) : ReportQueue :=
  let d := divideReturned (Config.urgentCapacity - q.urgent.length) kept
  { q with
    urgent := d.1 ++ q.urgent
    lists := .ofFn fun c => d.2.filter (fun r => decide (r.cls = c)) ++ q.lists.get c }

/-- The oldest record of the worst-ranked class evicted, a number of times (R75). -/
def ReportQueue.evictTimes (classes : PerClass ClassSetting) : Nat → ReportQueue → ReportQueue
  | 0, q => q
  | n + 1, q =>
    match q.worst classes with
    | some w => ReportQueue.evictTimes classes n (q.evict w)
    | none => q

/-- The return of the outstanding records after an owner change, one claim (R73 to R75). -/
def ReportQueue.takeBack (q : ReportQueue) (classes : PerClass ClassSetting) (outstanding : List Outstanding) : ReportQueue :=
  let returned := (outstanding.map Outstanding.report).filter fun r => !r.isSweep
  let merged := mergeReturned returned.reverse q []
  let placed := merged.1.placeReturned merged.2
  placed.evictTimes classes (placed.pooled - Config.poolCapacity)

end Sys2Proof.Machine
end

