-- ==== Sys2Proof/Machine/Ops.lean ====
section
/-!
DEFINITION. The operations that several commands share: raising reports, offering frames to the two FIFOs, the Emitter's timers,
DEAF and its end, the owner change, responses and the repeat cache, and the judging of a request (R153).
-/

namespace Sys2Proof.Machine

/-! ## Outcomes -/

/-- A command's effect. While RESET is held the part takes no frame and no request and no event comes about (R174), so
the state stays as it is. -/
def whenReleased (s : State) (effect : State → State) : Host.Outcome State Fault Refusal :=
  if s.start.resetHeld then .next s else .next (effect s)

/-- The part is HELD or RUNNING. -/
def State.started (s : State) : Bool :=
  match s.start.part with
  | .held | .running => true
  | .scrub | .loading => false

/-- The part is RUNNING. -/
def State.isRunning (s : State) : Bool := decide (s.start.part = .running)

/-! ## Reports -/

/-- Reports handed to the Report Queue one after another (R63). -/
def State.raise (s : State) (cs : List Claim) : State := s.withQueue (s.queue.addAll s.emitter.classes cs)

/-- A head report as the part would raise it now, for ordinary placement (R59). -/
def State.headClaim (s : State) (kind : Kind) : Claim :=
  ⟨headReport kind s.start.settings.headClass s.sweep.cycle, false⟩

/-- The RESTARTED report, with the start status and generation as they stand (R59, R182). -/
def State.restartedClaim (s : State) : Claim :=
  ⟨{ headReport .restarted s.start.settings.headClass s.sweep.cycle with
      restart := some ⟨s.start.status, s.tables.generation⟩ }, false⟩

/-- The RESTARTED report raised if the restart notice is due, which then stops being due (R179, R182). -/
def State.noticeRestart (s : State) : State :=
  if s.start.restartDue then
    (s.raise [s.restartedClaim]).withStart { s.start with restartDue := false }
  else s

/-! ## The FIFOs -/

/-- The Up FIFO has room for a frame (R143). -/
def State.upRoom (s : State) : Bool := decide (s.ports.up.length < Config.fifoCapacity)

/-- A frame joins the back of the Up FIFO. -/
def State.pushUp (s : State) (f : UpFrame) : State := s.withPorts { s.ports with up := s.ports.up ++ [f] }

/-- The reports of a frame that meets a full Up FIFO: one UPLINK-FULL in HELD and RUNNING, none in SCRUB and LOADING
(R143). -/
def State.uplinkClaims (s : State) : List Claim := if s.started then [s.headClaim .uplinkFull] else []

/-- A frame offered to the Up FIFO (R143). -/
def State.offerUp (s : State) (f : UpFrame) : State :=
  if s.upRoom then s.pushUp f else s.raise s.uplinkClaims

/-- A frame offered to the Down FIFO (R144). -/
def State.offerDown (s : State) (bytes : List Byte) : State :=
  if s.ports.down.length < Config.fifoCapacity then s.withPorts { s.ports with down := s.ports.down ++ [bytes] }
  else if s.started then s.raise [s.headClaim .downlinkFull]
  else s

/-! ## Tallies (R135) -/

/-- A tally incremented, saturating at 65535. -/
def tally (n : Nat) : Nat := saturate Config.tallyMax (n + 1)

/-- A frame that fails the F-port's receive checks. -/
def State.fError (s : State) : State := s.withPorts { s.ports with fErrors := tally s.ports.fErrors }

/-- A frame refused by the F-port routing. -/
def State.fRefuse (s : State) : State := s.withPorts { s.ports with fRefused := tally s.ports.fRefused }

/-- A frame that fails the T-port's receive checks. -/
def State.tError (s : State) : State := s.withPorts { s.ports with tErrors := tally s.ports.tErrors }

/-- A frame or request refused at the T-port. -/
def State.tRefuse (s : State) : State := s.withPorts { s.ports with tRefused := tally s.ports.tRefused }

/-! ## The Emitter's timer and DEAF -/

/-- The ack wait timer as R89 and R91 leave it for an outstanding list whose oldest record has just changed: started afresh
if the oldest is SENT and the link NORMAL, stopped otherwise. -/
def ackTimerFor (link : Link) (ackWait : Nat) : List Outstanding → Timer
  | o :: _ => if o.transmit = .sent ∧ link = .normal then .start ackWait else .stopped
  | [] => .stopped

/-- The link condition NORMAL again: hail timer stopped, pending HAIL withdrawn (R96, R97). -/
def Emitter.linkNormal (e : Emitter) : Emitter := { e with link := .normal, hailTimer := .stopped, hailPending := false }

/-- ALERT deasserted unless the start alert is set (R96, R97). -/
def StartController.dropAlert (c : StartController) : StartController := { c with alert := c.startAlert }

/-- The end of DEAF at a request of the owner: every outstanding record FLAGGED with retry count 0 (R96). -/
def State.endDeaf (s : State) : State :=
  match s.emitter.link with
  | .normal => s
  | .deaf =>
    (s.withEmitter
      { s.emitter.linkNormal with
        outstanding := s.emitter.outstanding.map fun o => { o with retry := 0, transmit := .flagged } }).withStart
      s.start.dropAlert

/-- The entry to DEAF (R94): the ack wait timer stops, the hail timer starts, ALERT is asserted. -/
def State.goDeaf (s : State) : State :=
  (s.withEmitter
    { s.emitter with
      link := .deaf, ackTimer := .stopped, hailTimer := .start s.start.settings.hailInterval }).withStart
    { s.start with alert := true }

/-! ## Owner change (R98, R112, R156) -/

/-- The Emitter's part of an owner change: timer stopped, DEAF ended, the outstanding list handed back to the queue (R98). -/
def State.emitterOwnerChange (s : State) : State :=
  let s1 := s.withQueue (s.queue.takeBack s.emitter.classes s.emitter.outstanding)
  match s.emitter.link with
  | .normal => s1.withEmitter { s.emitter with ackTimer := .stopped, outstanding := [] }
  | .deaf =>
    (s1.withEmitter { s.emitter.linkNormal with ackTimer := .stopped, outstanding := [] }).withStart s.start.dropAlert

/-- The Sweep Generator's part of an owner change: an ACTIVE or STOPPING sweep ends without a SWEEP-END (R112). -/
def SweepGenerator.ownerChange (g : SweepGenerator) : SweepGenerator :=
  match g.state with
  | .idle => g
  | .active | .stopping => { g with state := .idle, lastEnd := .ownerChanged }

/-- An owner change (R156): the Emitter's and the Sweep Generator's parts, the repeat cache emptied, the owner replaced. -/
def State.changeOwner (s : State) (owner : Option Node) : State :=
  let s1 := s.emitterOwnerChange
  (s1.withSweep s1.sweep.ownerChange).withMgmt { s1.mgmt with cache := none, owner := owner }

/-! ## Responses (R145, R151, R163) -/

/-- A response joins the back of the response list (R145). -/
def State.pushResponse (s : State) (r : Response) : State :=
  s.withPorts { s.ports with responses := s.ports.responses ++ [r] }

/-- The response to a request (R151). -/
def responseTo (q : Request) (status : Status) (results : Results) : Response :=
  ⟨q.src, q.tag, q.name, status, results, false⟩

/-- A response made to a request, not entered into the repeat cache. -/
def State.reply (s : State) (q : Request) (status : Status) (results : Results) : State :=
  s.pushResponse (responseTo q status results)

/-- An entry put into the repeat cache (R161). -/
def State.setCache (s : State) (tag : Byte) (content : CacheContent) : State :=
  s.withMgmt { s.mgmt with cache := some ⟨tag, content⟩ }

/-- A response made at steps 3 to 6 of R153. It enters the repeat cache if the requester is the owner once the request has been
carried out: so a CLAIM's as the new owner's first entry, and a YIELD's not (R163; log 17). -/
def State.respond (s : State) (q : Request) (status : Status) (results : Results) : State :=
  if s.mgmt.owner = some q.src then (s.reply q status results).setCache q.tag (.held (responseTo q status results))
  else s.reply q status results

/-- The responses made on taking requests that wait in the response list (R139, R145). -/
def State.requestResponses (s : State) : Nat := (s.ports.responses.filter fun r => !r.final).length

/-- The fifth place of the response list holds a final response (R145). -/
def State.finalWaits (s : State) : Bool := s.ports.responses.any fun r => r.final

/-- The cache after the final response of an operation: its own IN-PROGRESS entry takes the response, any other entry stays
(R164). -/
def cacheAfterFinal (cache : Option CacheEntry) (tag : Byte) (r : Response) : Option CacheEntry :=
  if cache = some ⟨tag, .inProgress⟩ then some ⟨tag, .held r⟩ else cache

/-- The request name byte of an operation (R187). -/
def Operation.code : Operation → Byte
  | .commit => RequestName.code .commit
  | .copyActive => RequestName.code .copyActive

/-- The final response of the operation in progress, to the node that sent it (R164). -/
def State.finalResponse (s : State) (status : Status) (results : Results) : State :=
  match s.mgmt.inProgress with
  | none => s
  | some p =>
    let r : Response := ⟨p.source, p.tag, p.operation.code, status, results, true⟩
    (s.pushResponse r).withMgmt { s.mgmt with cache := cacheAfterFinal s.mgmt.cache p.tag r, inProgress := none }

/-! ## Judging a request (R153) -/

/-- What a request's own rule does (step 6): it changes the state and gives an answer, or it makes no response now (a COMMIT or
COPY-ACTIVE taken for execution, a restart that has answered for itself or answers nothing). -/
inductive Act
  | answer (s : State) (status : Status) (results : Results)
  | silent (s : State)
deriving DecidableEq, Repr

/-- Requests open to every node (R159). -/
def RequestName.isOpen : RequestName → Bool
  | .queryStatus | .readEntry | .readModule | .claim => true
  | _ => false

/-- Requests taken while a commit or copy is in progress (R154). -/
def RequestName.takenWhileBusy : RequestName → Bool
  | .queryStatus | .readEntry | .readModule | .ack | .claim | .restart => true
  | _ => false

/-- Step 6 of R153. -/
def Act.apply (q : Request) : Act → State
  | .answer s status results => s.respond q status results
  | .silent s => s

/-- Steps 3 to 6 of R153, for a name that is in the catalogue or none. -/
def State.judge (s : State) (q : Request) (name : Option RequestName) (rule : State → Request → Act) : State :=
  match name with
  | none => s.respond q .unknownRequest .none
  | some n =>
    if s.mgmt.owner ≠ some q.src ∧ n.isOpen = false then s.respond q .notOwner (.owner s.mgmt.owner)
    else if s.tables.activity ≠ .idle ∧ n.takenWhileBusy = false then s.respond q .busy .none
    else (rule s q).apply q

/-- The outcome of a tag that matches the repeat cache (R162): the held response made again, to be sent as a new response;
nothing while the request is in progress. -/
def State.repeatCached (s : State) (q : Request) : CacheContent → State
  | .held r => s.pushResponse { r with dest := q.src, final := false }
  | .inProgress => s

/-- The cached content under a tag (R162). -/
def ManagementUnit.cached (m : ManagementUnit) (tag : Byte) : Option CacheContent :=
  match m.cache with
  | some e => if e.tag = tag then some e.content else none
  | none => none

/-- A request taken by the Management Unit (R153): NOT-READY in SCRUB and LOADING; for the owner the end of DEAF and the repeat
cache; then steps 3 to 6. -/
def State.takeRequest (s : State) (q : Request) (name : Option RequestName) (rule : State → Request → Act) : State :=
  if s.started = false then s.reply q .notReady .none
  else if s.mgmt.owner = some q.src then
    let s1 := s.endDeaf
    match s1.mgmt.cached q.tag with
    | some content => s1.repeatCached q content
    | none => s1.judge q name rule
  else s.judge q name rule

/-- A request handed over by the T-port routing: refused at the T-port while the response list holds four responses to
requests (R139). -/
def State.handRequest (s : State) (q : Request) (name : Option RequestName) (rule : State → Request → Act) : State :=
  if s.requestResponses < Config.responseCapacity then s.takeRequest q name rule else s.tRefuse

/-- The arrival of the MGMT-REQ frame of a request command: one whose source or length could not pass the receive checks is
discarded and tallied (R134; log 4). -/
def request (src : Node) (tag name : Byte) (params : List Byte) (known : Option RequestName)
    (rule : State → Request → Act) (s : State) : Host.Outcome State Fault Refusal :=
  whenReleased s fun s =>
    if validSource src && decide (params.length + 2 ≤ 240) then s.handRequest ⟨src, tag, name, params⟩ known rule
    else s.tError

end Sys2Proof.Machine
end

