-- ==== Sys2Proof/Machine/Emission.lean ====
section
/-!
DEFINITION. The choice of the next report (R81 to R83), first emission and retransmission (R84, R85), the Sweep Generator's wins
(R105 to R109), the Transmit Arbiter (R146, R147, R149), and the commands that grant and end transmissions on the two ports.
-/

namespace Sys2Proof.Machine

/-! ## The Sweep Generator -/

/-- Whether the Sweep Generator contends for emission (R105). -/
def State.sweepContends (s : State) : Bool :=
  match s.sweep.state with
  | .idle => false
  | .active => decide (s.tables.activity = .idle) && s.isRunning
  | .stopping => decide (s.tables.activity = .idle) && s.started

/-- An entry is in scope, as it stands at the win (R104). -/
def Scope.covers : Scope → Entry → Bool
  | .all, _ => true
  | .disagree, e => decide (e.run.verdict = .disagree) || decide (e.run.verdict = .faulted)
  | .cls c, e => decide (e.config.cls = c)

/-- The entry the next win reports, if any (R106). -/
def State.nextSwept (s : State) : Option Entry :=
  s.tables.active.nextEntry s.sweep.cursor fun e => (s.sweep.scope.map fun x => x.covers e).getD false

/-- A SWEEP report of an entry, with the count swept after the increment (R107). -/
def sweepReport (e : Entry) (g : SweepGenerator) : Report :=
  { newReport .sweep e.config.cls (.point e.config.key) g.cycle with
    verdict := some e.run.verdict, value := e.run.last, sweep := some ⟨g.number, g.count, none⟩ }

/-- A SWEEP-END report (R108). -/
def sweepEndReport (headClass : ReportClass) (g : SweepGenerator) (reason : SweepReason) : Report :=
  { headReport .sweepEnd headClass g.cycle with sweep := some ⟨g.number, g.count, some reason⟩ }

/-- A win of the Sweep Generator: the report it builds and its state after it. A STOPPING sweep makes no lookup and ends
(R109); an ACTIVE one reports the next entry or ends COMPLETE (R106). -/
def State.sweepWin (s : State) : Report × SweepGenerator :=
  match s.sweep.state with
  | .stopping =>
    (sweepEndReport s.start.settings.headClass s.sweep .stopped, { s.sweep with state := .idle, lastEnd := .stopped })
  | _ =>
    match s.nextSwept with
    | some e =>
      let g := { s.sweep with cursor := some e.config.key, count := saturate Config.sweptMax (s.sweep.count + 1) }
      (sweepReport e g, g)
    | none =>
      (sweepEndReport s.start.settings.headClass s.sweep .complete, { s.sweep with state := .idle, lastEnd := .complete })

/-! ## The Emitter's choice (R82, R83) -/

/-- The report frame that the choice supplies. -/
inductive Choice
  | retransmit (record : Outstanding)
  | urgent (record : Report)
  | fromClass (cls : ReportClass) (record : Report)
  | sweep
deriving DecidableEq, Repr

/-- The node reports may be sent to: the owner, while the link is NORMAL and the part HELD or RUNNING (R81). -/
def State.listener (s : State) : Option Node :=
  if s.emitter.link = .normal ∧ s.started = true then s.mgmt.owner else none

/-- A class takes part in the contest: enabled, with a queued record, and able to pay (R83). -/
def State.classContends (s : State) (c : ReportClass) : Bool :=
  (s.emitter.classes.get c).enabled && !(s.queue.lists.get c).isEmpty &&
    (decide ((s.emitter.classes.get c).period = 0) || decide (0 < s.emitter.credits.get c))

/-- The best-ranked class that takes part; of equal ranks the lower class number (R83). -/
def State.bestClass (s : State) : Option ReportClass :=
  (allClasses.filter s.classContends).foldl
    (fun best c =>
      match best with
      | none => some c
      | some b => if (s.emitter.classes.get c).rank < (s.emitter.classes.get b).rank then some c else some b)
    none

/-- The contest of the ranked contenders: a class of a rank equal to the sweep rank wins over the sweep (R83). -/
def State.contest (s : State) : Option Choice :=
  match s.bestClass with
  | some c =>
    if s.sweepContends ∧ s.start.settings.sweepRank < (s.emitter.classes.get c).rank then some .sweep
    else (s.queue.lists.get c).head?.map (.fromClass c)
  | none => if s.sweepContends then some .sweep else none

/-- The choice of R82: the oldest FLAGGED record; else, while the outstanding list has a free place, the front of the urgent
list; else the winner of the contest. -/
def State.choice (s : State) : Option Choice :=
  match s.emitter.outstanding.find? fun o => decide (o.transmit = .flagged) with
  | some o => some (.retransmit o)
  | none =>
    if s.emitter.outstanding.length < Config.outstandingCapacity then
      match s.queue.urgent with
      | r :: _ => some (.urgent r)
      | [] => s.contest
    else none

/-- The offer stands at the urgent level: a first emission from the urgent list, or a copy of a record with urgent mark
(R82). -/
def Choice.isUrgent : Choice → Bool
  | .retransmit o => o.report.urgent
  | .urgent _ => true
  | .fromClass _ _ | .sweep => false

/-! ## Sending on the T-port -/

/-- A frame the part originates is granted the transmitter: it takes the frame sequence, which is incremented (R149). -/
def State.send (s : State) (dest : Node) (kind : OwnKind) (payload : List Byte) (report : Option Word) : State :=
  s.withPorts
    { s.ports with
      sequence := s.ports.sequence + 1
      tSending := some ⟨frameBytes dest s.start.ownNode kind s.ports.sequence payload, report⟩ }

/-- A record as first emission makes it (R84): numbered, its lost-before the sum of what it carries and the lost count handed
over, its retry count 0. -/
def emitted (r : Report) (number : Word) (lost : Nat) : Outstanding :=
  ⟨{ r with lostBefore := saturate Config.countMax (r.lostBefore + lost) }, number, 0, .sending⟩

/-- First emission (R84): the record joins the back of the outstanding list and its frame is granted. -/
def State.emitFirst (s : State) (owner : Node) (r : Report) (lost : Nat) : State :=
  let o := emitted r s.emitter.nextNumber lost
  (s.withEmitter
    { s.emitter with nextNumber := s.emitter.nextNumber + 1, outstanding := s.emitter.outstanding ++ [o] }).send
    owner .report (reportPayload o) (some o.number)

/-- A class pays for a win: one credit, unless its refill period is 0 (R86). -/
def Emitter.pay (e : Emitter) (c : ReportClass) : Emitter :=
  if (e.classes.get c).period = 0 then e else { e with credits := e.credits.set c (e.credits.get c - 1) }

/-- An outstanding record's transmit state rewritten by number. -/
def setTransmit (number : Word) (t : TransmitState) (l : List Outstanding) : List Outstanding :=
  l.map fun o => if o.number = number then { o with transmit := t } else o

/-- The emission of a chosen report frame to the owner (R82, R84, R85). -/
def State.emit (s : State) (owner : Node) : Choice → State
  | .retransmit o =>
    (s.withEmitter { s.emitter with outstanding := setTransmit o.number .sending s.emitter.outstanding }).send
      owner .report (reportPayload o) (some o.number)
  | .urgent r => (s.withQueue (s.queue.takeUrgent r.cls)).emitFirst owner r (s.queue.lost.get r.cls)
  | .fromClass c r =>
    ((s.withQueue (s.queue.takeClass c)).withEmitter (s.emitter.pay c)).emitFirst owner r (s.queue.lost.get c)
  | .sweep => (s.withSweep s.sweepWin.2).emitFirst owner s.sweepWin.1 0

/-- The alternation mark set after a grant at level 3 (R147). -/
def State.setMark (s : State) (m : AlternationMark) : State := s.withPorts { s.ports with mark := m }

/-- The frame to which the arbiter grants the transmitter (R146). -/
inductive Grant
  | response (r : Response)
  | report (owner : Node) (choice : Choice)
  | up (frame : UpFrame)
  | hail (owner : Node) (oldest : Word)
deriving DecidableEq, Repr

/-- A pending HAIL, offered while the link is DEAF (R95). -/
def State.hailOffer (s : State) : Option Grant :=
  if s.emitter.hailPending = true ∧ s.emitter.link = .deaf then
    match s.mgmt.owner, s.emitter.outstanding with
    | some owner, o :: _ => some (.hail owner o.number)
    | _, _ => none
  else none

/-- The report offer and the node it is for (R81, R82). -/
def State.reportOffer (s : State) : Option (Node × Choice) :=
  match s.listener, s.choice with
  | some owner, some c => some (owner, c)
  | _, _ => none

/-- The frame of the Up FIFO, or what waits below it. -/
def State.upOrHail (s : State) : Option Grant :=
  match s.ports.up with
  | f :: _ => some (.up f)
  | [] => s.hailOffer

/-- The arbiter's order (R146, R147): the front response; the report offer at the urgent level; the Up FIFO and the report offer
at the ordinary level, by the alternation mark when both wait; a pending HAIL. -/
def State.nextGrant (s : State) : Option Grant :=
  match s.ports.responses with
  | r :: _ => some (.response r)
  | [] =>
    match s.reportOffer with
    | some (owner, c) =>
      if c.isUrgent = false ∧ s.ports.up ≠ [] ∧ s.ports.mark = .upNext then s.upOrHail else some (.report owner c)
    | none => s.upOrHail

/-- The front frame of the Up FIFO granted: a rebuilt frame takes the part's own node and sequence (R141, R149), a frame passed
up is sent as received (R142). -/
def State.sendUp (s : State) : UpFrame → State
  | .rebuilt dest origin items => s.send dest .point (pointPayload origin items) none
  | .passed bytes => s.withPorts { s.ports with tSending := some ⟨bytes, none⟩ }

/-- The grant of the transmitter to a frame (R146 to R149). -/
def State.grant (s : State) : Grant → State
  | .response r =>
    (s.withPorts { s.ports with responses := s.ports.responses.tail }).send r.dest .mgmtRsp (responsePayload r) none
  | .report owner c => if c.isUrgent then s.emit owner c else (s.emit owner c).setMark .upNext
  | .up f => ((s.withPorts { s.ports with up := s.ports.up.tail }).sendUp f).setMark .reportNext
  | .hail owner oldest =>
    (s.withEmitter { s.emitter with hailPending := false }).send owner .hail
      (hailPayload oldest s.emitter.outstanding.length) none

/-- TRANSMIT_GRANT: with the T-port transmitter free and a frame waiting, the arbiter grants it to one frame (R146). -/
def execTransmitGrant (s : State) : Host.Outcome State Fault Refusal :=
  whenReleased s fun s =>
    match s.ports.tSending, s.nextGrant with
    | none, some g => s.grant g
    | _, _ => s

/-- A record whose copy has ended: SENT, if it is still SENDING (R80). -/
def endCopy (number : Word) (l : List Outstanding) : List Outstanding :=
  l.map fun o => if o.number = number ∧ o.transmit = .sending then { o with transmit := .sent } else o

/-- The oldest record of the list is the one of a number, and it is SENDING. -/
def oldestIsSending (number : Word) : List Outstanding → Bool
  | o :: _ => decide (o.number = number) && decide (o.transmit = .sending)
  | [] => false

/-- The end of a copy at the Emitter: its record becomes SENT, and starts the ack wait timer if it is the oldest (R80, R89). -/
def Emitter.copyEnds (e : Emitter) (ackWait : Nat) (number : Word) : Emitter :=
  { e with
    outstanding := endCopy number e.outstanding
    ackTimer :=
      if oldestIsSending number e.outstanding then ackTimerFor e.link ackWait (endCopy number e.outstanding)
      else e.ackTimer }

/-- T_PORT_FRAME_END: the transmitter is free again; the end of a REPORT frame is the end of a copy (R148). -/
def execTPortFrameEnd (s : State) : Host.Outcome State Fault Refusal :=
  whenReleased s fun s =>
    match s.ports.tSending with
    | none => s
    | some f =>
      let freed := s.withPorts { s.ports with tSending := none }
      match f.report with
      | none => freed
      | some n => freed.withEmitter (s.emitter.copyEnds s.start.settings.ackWait n)

/-- F_PORT_TRANSMIT_START: with the F-port transmitter free, the front frame leaves the Down FIFO and begins to be sent
(R144). -/
def execFPortTransmitStart (s : State) : Host.Outcome State Fault Refusal :=
  whenReleased s fun s =>
    match s.ports.fSending, s.ports.down with
    | none, f :: rest => s.withPorts { s.ports with down := rest, fSending := some f }
    | _, _ => s

/-- F_PORT_TRANSMIT_END: the frame has left the F-port (R144). -/
def execFPortTransmitEnd (s : State) : Host.Outcome State Fault Refusal :=
  whenReleased s fun s => s.withPorts { s.ports with fSending := none }

end Sys2Proof.Machine
end

