-- ==== Sys2Proof/Machine/Frames.lean ====
section
/-!
DEFINITION. Frames received on the F-port (R136, R137): the routing, the Module Supervisor's hearing (R47, R48) and the Point
Evaluator's treatment of a POINT frame (R22 to R27, R41).
-/

namespace Sys2Proof.Machine

/-! ## Hearing a module (R47, R48) -/

/-- The slot of a module that a POINT frame for the head hears: RUNNING and listed in the ACTIVE bank (R47). -/
def State.heard (s : State) (origin : Station) : Option Slot :=
  if s.isRunning then s.tables.active.slot? origin else none

/-- The heard module is LIVE with its timer restarted (R48). -/
def Bank.hear (b : Bank) (x : Slot) : Bank := b.setSlot x.station .live (.start x.limit)

/-- The RESUMED report of a module heard while SILENT (R48). -/
def resumedClaim (x : Slot) (cycle : Option Word) : List Claim :=
  if x.state = .silent then [⟨moduleReport .resumed x cycle, false⟩] else []

/-! ## The treatment of a POINT frame -/

/-- What the Evaluator gives back for a POINT frame: the ACTIVE bank, the reports in order, the items kept, in frame order. -/
def State.evaluateFrame (s : State) (origin : Station) (items : List Item) : Evaluation :=
  let active := s.tables.active
  if s.isRunning = true ∧ s.tables.activity = .idle then
    if active.lists origin then evaluateItems origin s.start.settings.pointPolicy s.sweep.cycle active items
    else
      match s.start.settings.modulePolicy with
      | .forward => ⟨active, [], items⟩
      | .drop => ⟨active, [], []⟩
  else ⟨active, [], items⟩

/-- The claims of one frame in the order they are taken: the Evaluator's and the Trunk Port's in their order, and the Module
Supervisor's among them at a place that R48 and R63 leave open (log 13). -/
def interleave (place : Nat) (supervisor others : List Claim) : List Claim :=
  let n := place % (others.length + 1)
  others.take n ++ supervisor ++ others.drop n

/-- The POINT frame built for the trunk: to the owner, or to 127 with no owner (R141). -/
def State.rebuiltFrame (s : State) (origin : Station) (items : List Item) : UpFrame :=
  .rebuilt (s.mgmt.owner.getD 127) origin items

/-- The kept items handed to the Trunk Port: one frame for the Up FIFO, or none when no item is kept (R41, R141). -/
def State.forward (s : State) (origin : Station) (items : List Item) : State :=
  if items = [] ∨ s.upRoom = false then s else s.pushUp (s.rebuiltFrame origin items)

/-- The UPLINK-FULL of a rebuilt frame that meets a full Up FIFO (R143). -/
def State.forwardClaims (s : State) (items : List Item) : List Claim :=
  if items = [] ∨ s.upRoom = true then [] else s.uplinkClaims

/-- The ACTIVE bank after a POINT frame: what evaluation wrote, and the heard module's state and timer. -/
def State.bankAfterFrame (s : State) (origin : Station) (items : List Item) : Bank :=
  match s.heard origin with
  | some x => (s.evaluateFrame origin items).bank.hear x
  | none => (s.evaluateFrame origin items).bank

/-- The Module Supervisor's report on a frame. -/
def State.supervisorClaims (s : State) (origin : Station) : List Claim :=
  match s.heard origin with
  | some x => resumedClaim x s.sweep.cycle
  | none => []

/-- A POINT frame for the head, taken whole (R22, R137). -/
def State.takePoint (s : State) (origin : Station) (items : List Item) : State :=
  let e := s.evaluateFrame origin items
  let supervisor := s.supervisorClaims origin
  let others := e.claims ++ s.forwardClaims e.kept
  let s1 := (s.withTables (s.tables.setActive (s.bankAfterFrame origin items))).forward origin e.kept
  if supervisor = [] ∨ others = [] then s1.raise (supervisor ++ others)
  else (s1.raise (interleave (Config.freeOrder s.freeCount) supervisor others)).withFreeCount (s.freeCount + 1)

/-- A good frame routed on the F-port by the first line of R136 that it meets. -/
def State.routeField (s : State) (bytes : List Byte) (f : LinkFrame) : State :=
  if f.dest = s.start.ownNode then s.fRefuse
  else if f.dest.toNat = 0 then
    match f.body with
    | .point origin items => s.takePoint origin items
    | _ => s.fRefuse
  else if 64 ≤ f.dest.toNat ∧ f.dest.toNat ≤ 126 then s.offerUp (.passed bytes)
  else s

/-- F_PORT_FRAME_RECEIVED: the receive checks and the routing (R134, R136). -/
def execFPortFrameReceived (bytes : List Byte) (s : State) : Host.Outcome State Fault Refusal :=
  whenReleased s fun s =>
    match receive true bytes with
    | some f => s.routeField bytes f
    | none => s.fError

end Sys2Proof.Machine
end

