-- ==== Sys2Proof/Machine/Timers.lean ====
section
/-!
DEFINITION. The timers: counting, when each expires and what its expiry does (R46, R49, R87, R90, R95), and the passing of one
millisecond. A timer expires when its duration has elapsed since its last start or restart (log 3); for a timer that is stopped,
or that has time left, the expiry does not occur (R35, R46, R51; log 2).
-/

namespace Sys2Proof.Machine

/-- The timer has run out: it was started or restarted, and the whole of its duration has elapsed since then (R46). -/
def Timer.isDue : Timer → Bool
  | .running 0 _ => true
  | _ => false

/-! ## Silence timers (Section 3) -/

/-- The slot whose silence timer expires: RUNNING, listed in the ACTIVE bank, the timer run out, UNHEARD or LIVE (R46, R49). A
frame that has restarted the timer leaves it time, so that the expiry does not occur (R35, R51). -/
def State.silenceSlot (s : State) (m : Station) : Option Slot :=
  if s.isRunning then
    match s.tables.active.slot? m with
    | some x => if x.timer.isDue = true ∧ x.state ≠ .silent then some x else none
    | none => none
  else none

/-- The three actions of an expiry (R49): SILENT with the timer stopped, the module's debounce runs cleared, a SILENT report
raised. -/
def State.goSilent (s : State) (x : Slot) : State :=
  (s.withTables
    (s.tables.setActive ((s.tables.active.setSlot x.station .silent .stopped).clearDebounce x.station))).raise
    [⟨moduleReport .silent x s.sweep.cycle, false⟩]

/-- SILENCE_EXPIRY. -/
def execSilenceExpiry (m : Station) (s : State) : Host.Outcome State Fault Refusal :=
  whenReleased s fun s =>
    match s.silenceSlot m with
    | some x => s.goSilent x
    | none => s

/-! ## The ack wait timer (R89, R90) -/

/-- The oldest record FLAGGED with its retry count incremented, the timer staying stopped until its copy has ended (R90). -/
def Emitter.flagOldest (e : Emitter) : Emitter :=
  match e.outstanding with
  | o :: rest =>
    { e with outstanding := { o with retry := o.retry + 1, transmit := .flagged } :: rest, ackTimer := .stopped }
  | [] => { e with ackTimer := .stopped }

/-- What an ack wait expiry does to an oldest record: flagged while its retry count is below the retry limit, the entry to DEAF
otherwise (R90). -/
def State.ackExpired (s : State) : State :=
  match s.emitter.outstanding with
  | [] => s
  | o :: _ => if o.retry < s.start.settings.retryLimit then s.withEmitter s.emitter.flagOldest else s.goDeaf

/-- ACK_WAIT_EXPIRY. -/
def execAckWaitExpiry (s : State) : Host.Outcome State Fault Refusal :=
  whenReleased s fun s => if s.emitter.ackTimer.isDue then s.ackExpired else s

/-! ## The hail timer (R95) -/

/-- The hail timer, which runs while the link is DEAF, has run out. -/
def State.hailExpires (s : State) : Bool := decide (s.emitter.link = .deaf) && s.emitter.hailTimer.isDue

/-- HAIL_EXPIRY: a HAIL is pending, and the timer is restarted with the hail interval then set (R95). -/
def execHailExpiry (s : State) : Host.Outcome State Fault Refusal :=
  whenReleased s fun s =>
    if s.hailExpires then
      s.withEmitter { s.emitter with hailPending := true, hailTimer := .start s.start.settings.hailInterval }
    else s

/-! ## Refill timers (R87) -/

/-- A refill timer for a period: none for a period of 0 (R87). -/
def refillTimer (period : Nat) : Timer := if period = 0 then .stopped else .start period

/-- A class's refill timer, which runs in HELD and RUNNING for a period that is not 0, has run out (R87). -/
def State.refillExpires (s : State) (c : ReportClass) : Bool :=
  s.started && (s.emitter.refill.get c).isDue && decide ((s.emitter.classes.get c).period ≠ 0)

/-- One credit added below the credit limit, and the timer restarted with the period then set (R87). -/
def Emitter.refilled (e : Emitter) (c : ReportClass) : Emitter :=
  { e with
    credits :=
      if e.credits.get c < (e.classes.get c).creditLimit then e.credits.set c (e.credits.get c + 1) else e.credits
    refill := e.refill.set c (refillTimer (e.classes.get c).period) }

/-- REFILL_EXPIRY. -/
def execRefillExpiry (c : ReportClass) (s : State) : Host.Outcome State Fault Refusal :=
  whenReleased s fun s => if s.refillExpires c then s.withEmitter (s.emitter.refilled c) else s

/-! ## The passing of time -/

/-- A timer after one millisecond. -/
def Timer.tick : Timer → Timer
  | .stopped => .stopped
  | .running n d => .running (n - 1) d

/-- One millisecond passes on every timer of the part. -/
def State.tick (s : State) : State :=
  (s.withTables (s.tables.mapBanks fun b => b.mapSlots fun x => (x.state, x.timer.tick))).withEmitter
    { s.emitter with
      ackTimer := s.emitter.ackTimer.tick
      hailTimer := s.emitter.hailTimer.tick
      refill := .ofFn fun c => (s.emitter.refill.get c).tick }

/-- The expiries that are due (log 1): silence timers in station order, the ack wait timer, the hail timer, refill timers in
class order. -/
def State.dueExpiries (s : State) : List Instr :=
  (s.tables.active.slots.filter fun x => s.isRunning && x.timer.isDue && decide (x.state ≠ .silent)).map
      (fun x => .silenceExpiry x.station) ++
    (if s.emitter.ackTimer.isDue && !s.emitter.outstanding.isEmpty then [.ackWaitExpiry] else []) ++
    (if s.hailExpires then [.hailExpiry] else []) ++
    (allClasses.filter s.refillExpires).map Instr.refillExpiry

end Sys2Proof.Machine
end

