-- ==== Sys2Proof/Machine/Part.lean ====
section
/-!
DEFINITION. The Start Controller's requests and resets: HOLD, RELEASE, the two levels of RESTART, the pin reset, and the end of
the scrub (R171 to R174, R179 to R183).
-/

namespace Sys2Proof.Machine

/-! ## HOLD and RELEASE -/

/-- The part becomes HELD: every silence timer stops, module states kept (R52, R181). -/
def State.hold (s : State) : State :=
  (s.withTables (s.tables.setActive s.tables.active.stopTimers)).withStart { s.start with part := .held }

/-- HOLD (R181). -/
def holdRule (s : State) (q : Request) : Act :=
  match q.params with
  | [] => if s.isRunning then .answer s.hold .done .none else .answer s .wrongState .none
  | _ => .answer s .badRequest .none

/-- HOLD. -/
def execHold (src : Node) (tag : Byte) (params : List Byte) (s : State) : Host.Outcome State Fault Refusal :=
  request src tag (RequestName.code .hold) params (some .hold) holdRule s

/-- The tables at a RELEASE: the run state of every entry of both banks cleared, supervision of the ACTIVE bank begun afresh
(R13, R53, R182). -/
def TableStore.released (t : TableStore) : TableStore :=
  let c := t.mapBanks Bank.clearRuns
  c.setActive c.active.superviseAfresh

/-- ALERT once the start alert is cleared: asserted while the link is DEAF (R180). -/
def StartController.clearStartAlert (c : StartController) (link : Link) : StartController :=
  { c with startAlert := false, alert := decide (link = .deaf) }

/-- The five steps of a RELEASE (R182). -/
def State.release (s : State) : State :=
  ((s.withTables s.tables.released).withStart
    { s.start.clearStartAlert s.emitter.link with part := .running }).noticeRestart

/-- RELEASE (R182). -/
def releaseRule (s : State) (q : Request) : Act :=
  match q.params with
  | [] => if s.start.part = .held then .answer s.release .done .none else .answer s .wrongState .none
  | _ => .answer s .badRequest .none

/-- RELEASE. -/
def execRelease (src : Node) (tag : Byte) (params : List Byte) (s : State) : Host.Outcome State Fault Refusal :=
  request src tag (RequestName.code .release) params (some .release) releaseRule s

/-! ## WARM restart (R183) -/

/-- The Table Store at a WARM restart (R21, R55): configuration kept, run state cleared, every listed slot of both banks
UNHEARD with its timer stopped, an operation abandoned. -/
def TableStore.warm (t : TableStore) : TableStore :=
  { t.mapBanks fun b => b.clearRuns.unhear with activity := .idle }

/-- The Report Emitter at a WARM restart (R101). -/
def Emitter.warm (e : Emitter) : Emitter :=
  { e.linkNormal with
    outstanding := [], ackTimer := .stopped
    credits := .ofFn fun c => (e.classes.get c).creditLimit
    refill := .ofFn fun c => refillTimer (e.classes.get c).period }

/-- The Sweep Generator at a WARM restart (R103, R113). -/
def SweepGenerator.warm (g : SweepGenerator) : SweepGenerator :=
  { g with state := .idle, lastEnd := .restarted, arm := none, triggerRefused := false, cycle := none }

/-- The ports at a WARM restart (R150): the FIFOs emptied and the alternation mark UP-NEXT, the rest kept. -/
def Ports.warm (p : Ports) : Ports := { p with up := [], down := [], mark := .upNext }

/-- The Start Controller at a WARM restart (R180, R183). -/
def StartController.warm (c : StartController) : StartController :=
  { c with part := .held, status := .warmRestart, restartDue := true, startAlert := false, alert := false }

/-- The effects of a WARM restart on every block, in one event (R183). -/
def State.warm (s : State) : State :=
  { s with
    tables := s.tables.warm
    queue := .atReset
    emitter := s.emitter.warm
    sweep := s.sweep.warm
    ports := s.ports.warm
    mgmt := { s.mgmt with inProgress := none }
    start := s.start.warm }

/-- RESTART of level WARM: the DONE response is made first and enters the cache, then the effects (R169, R183). -/
def warmRule (s : State) (q : Request) : Act := .silent (s.respond q .done .none).warm

/-! ## Entering SCRUB (R171 to R173) -/

/-- The own node number that the NODE pins give: 0 and 127 give 126 (R172). -/
def sampledNode (pins : Pins) : Node := if pins.node = 0 ∨ pins.node = 127 then 126 else pins.node

/-- The start is address-defaulted (R172). -/
def addressDefaults (pins : Pins) : Bool := decide (pins.node = 0) || decide (pins.node = 127)

/-- The Start Controller on entering SCRUB: pins and strap sampled, settings at their values after reset, the image reader at
rest, start alert clear and ALERT deasserted (R168, R172, R180). The start status and the restart notice are set at the end of
the start (R179). -/
def StartController.enterScrub (c : StartController) (pins : Pins) : StartController :=
  { c with
    resetHeld := false, part := .scrub
    ownNode := sampledNode pins, strap := pins.strap, addressDefaulted := addressDefaults pins
    startAlert := false, alert := false, settings := .atReset, loader := .atRest }

/-- The part enters SCRUB: every block at its value after reset (R20, R78, R102, R103, R150, R170; log 7). What the two
transmitters are sending is given: cut off by a pin reset, sent to its end at a COLD restart (R148, R150). -/
def State.enterScrub (s : State) (pins : Pins) (t : Option Sending) (f : Option (List Byte)) : State :=
  { s with
    tables := .atReset
    queue := .atReset
    emitter := .atReset
    sweep := .atReset
    ports := { Ports.atReset with tSending := t, fSending := f }
    mgmt := .atReset
    start := s.start.enterScrub pins }

/-- RESTART of level COLD: no response; the part enters SCRUB with the pins sampled now (R174). -/
def coldRule (pins : Pins) (s : State) (_ : Request) : Act :=
  .silent (s.enterScrub pins s.ports.tSending s.ports.fSending)

/-- RESTART, by its level byte: WARM 1, COLD 2, any other BAD-REQUEST (R169, R187). -/
def restartRule (pins : Pins) (s : State) (q : Request) : Act :=
  match q.params with
  | [b] =>
    match b.toNat with
    | 1 => warmRule s q
    | 2 => coldRule pins s q
    | _ => .answer s .badRequest .none
  | _ => .answer s .badRequest .none

/-- WARM_RESTART: a RESTART of level WARM. -/
def execWarmRestart (src : Node) (tag : Byte) (s : State) : Host.Outcome State Fault Refusal :=
  request src tag (RequestName.code .restart) [1] (some .restart) warmRule s

/-- COLD_RESTART: a RESTART of level COLD. -/
def execColdRestart (src : Node) (tag : Byte) (pins : Pins) (s : State) : Host.Outcome State Fault Refusal :=
  request src tag (RequestName.code .restart) [2] (some .restart) (coldRule pins) s

/-! ## Pin reset and the end of the scrub -/

/-- The assertion of RESET (R174): everything in progress is abandoned, the transmissions are cut off, DEAF ends, the start alert
is cleared and ALERT deasserted (R97, R132, R148, R180). What else the part holds is cleared when the reset ends
(log 8). -/
def State.pinReset (s : State) : State :=
  { s with
    tables := { s.tables with activity := .idle }
    emitter := { s.emitter.linkNormal with ackTimer := .stopped }
    ports := { s.ports with tSending := none, fSending := none }
    mgmt := { s.mgmt with inProgress := none }
    start := { s.start with resetHeld := true, startAlert := false, alert := false, loader := .atRest } }

/-- PIN_RESET. -/
def execPinReset (s : State) : Host.Outcome State Fault Refusal := .next s.pinReset

/-- END_OF_PIN_RESET: from any state or power-up, the pins are sampled and the part enters SCRUB (R171, R172). -/
def execEndOfPinReset (pins : Pins) (s : State) : Host.Outcome State Fault Refusal :=
  .next (s.pinReset.enterScrub pins none none)

/-- The start ends in HELD with START = TRUNK (R173, R179): start status by the NODE pins, restart notice due. -/
def StartController.trunkStarted (c : StartController) : StartController :=
  { c with
    part := .held, restartDue := true
    status := if c.addressDefaulted then .addressDefaulted else .ok }

/-- LOADING begins: the reader reads the header next, the pending settings are a copy of the settings after reset (R173,
R175, R176). -/
def StartController.loadBegins (c : StartController) : StartController :=
  { c with part := .loading, loader := { Loader.atRest with phase := .header } }

/-- END_OF_SCRUB (R173). -/
def execEndOfScrub (s : State) : Host.Outcome State Fault Refusal :=
  whenReleased s fun s =>
    if s.start.part = .scrub then
      match s.start.strap with
      | .trunk => s.withStart s.start.trunkStarted
      | .image => s.withStart s.start.loadBegins
    else s

end Sys2Proof.Machine
end

