-- ==== Sys2Proof/Machine/Image.lean ====
section
/-!
DEFINITION. The image load (R175 to R178): the header, the records and the CRC, each read of the memory one command, and the
two ways in which a load ends. A read that is not due does not come about (log 2).
-/

namespace Sys2Proof.Machine

/-- A failed load ends (R178): STAGING cleared, pending settings dropped, IMAGE-BAD with the reason, the start alert set and
ALERT asserted, the part HELD, the restart notice due (R179, R180). -/
def State.loadFails (s : State) (reason : LoadFailure) : State :=
  (s.withTables s.tables.clearStaging).withStart
    { s.start with
      part := .held, status := .imageBad reason, restartDue := true
      startAlert := true, alert := true, loader := .atRest }

/-- The reader is about to read this (R175). -/
def State.reads (s : State) (p : LoadPhase) : Bool := decide (s.start.part = .loading) && decide (s.start.loader.phase = p)

/-- The reader's state replaced. -/
def State.setLoader (s : State) (l : Loader) : State := s.withStart { s.start with loader := l }

/-- A good header: its fields are kept and the records follow (R175). -/
def State.headerRead (s : State) (answer : List Byte) (h : ImageHeader) : State :=
  s.setLoader
    { s.start.loader with
      phase := .records h.count, crc := crcFrom s.start.loader.crc (answer.take 5), preset := h.preset, run := h.run }

/-- IMAGE_HEADER_READ (R175). -/
def execImageHeaderRead (answer : List Byte) (s : State) : Host.Outcome State Fault Refusal :=
  whenReleased s fun s =>
    if s.reads .header then
      match readHeader answer with
      | .ok h => s.headerRead answer h
      | .error e => s.loadFails e
    else s

/-- A record applied to the STAGING bank or to the pending settings (R176). -/
def State.applyRecord (s : State) : ImageRecord → State
  | .pointEntry c => s.withTables (s.tables.stageEntry c)
  | .moduleEntry m limit cls => s.withTables (s.tables.stageModule m limit cls)
  | .classSetting c x => s.setLoader { s.start.loader with classes := s.start.loader.classes.set c x }
  | .partSetting f => s.setLoader { s.start.loader with settings := f.apply s.start.loader.settings }

/-- A POINT-ENTRY record that would add a 513th key (R176). -/
def State.recordOverflows (s : State) : ImageRecord → Bool
  | .pointEntry c => !s.tables.hasRoom c.key
  | _ => false

/-- What the reader reads after a record: the next record, or the CRC (R175). -/
def nextPhase (left : Nat) : LoadPhase := if left ≤ 1 then .crc else .records (left - 1)

/-- The reader after a record of these bytes. -/
def State.recordRead (s : State) (left : Nat) (bytes : List Byte) : State :=
  s.setLoader { s.start.loader with phase := nextPhase left, crc := crcFrom s.start.loader.crc bytes }

/-- The records left to read, if a record is read next. -/
def State.recordsLeft (s : State) : Option Nat :=
  if s.start.part = .loading then
    match s.start.loader.phase with
    | .records n => some n
    | _ => none
  else none

/-- IMAGE_RECORD_READ (R176). -/
def execImageRecordRead (answer : List Byte) (s : State) : Host.Outcome State Fault Refusal :=
  whenReleased s fun s =>
    match s.recordsLeft with
    | none => s
    | some left =>
      match readRecord answer with
      | .error e => s.loadFails e
      | .ok (r, bytes) =>
        if s.recordOverflows r then s.loadFails .full else (s.applyRecord r).recordRead left bytes

/-- The Emitter when a load succeeds: the pending class settings become current, every credit is at its limit, and a refill timer
is started for each class whose period is not 0 (R177). -/
def Emitter.loaded (e : Emitter) (classes : PerClass ClassSetting) : Emitter :=
  { e with
    classes := classes
    credits := .ofFn fun c => (classes.get c).creditLimit
    refill := .ofFn fun c => refillTimer (classes.get c).period }

/-- The Start Controller when a load succeeds (R177, R179). -/
def StartController.loaded (c : StartController) : StartController :=
  { c with
    part := if c.loader.run then .running else .held
    status := .imageLoaded, restartDue := true, settings := c.loader.settings, loader := .atRest }

/-- A successful load ends, in the six steps of R177: settings, implicit commit, owner, start status, part state, and the
RESTARTED report if the part is now RUNNING. -/
def State.loadSucceeds (s : State) : State :=
  let l := s.start.loader
  let s1 := (((s.withEmitter (s.emitter.loaded l.classes)).withTables { s.tables.commit l.run with activity := s.tables.activity }).withMgmt
    { s.mgmt with owner := l.preset }).withStart s.start.loaded
  if l.run then s1.noticeRestart else s1

/-- The end of the image (R177): the CRC compared, then the module check. -/
def State.finishLoad (s : State) (read : Word) : State :=
  if read ≠ s.start.loader.crc then s.loadFails .check
  else
    match s.tables.staging.firstUnlisted with
    | some _ => s.loadFails .unlistedModule
    | none => s.loadSucceeds

/-- IMAGE_CRC_READ (R177). -/
def execImageCrcRead (answer : List Byte) (s : State) : Host.Outcome State Fault Refusal :=
  whenReleased s fun s =>
    if s.reads .crc then
      match readImageCrc answer with
      | .ok w => s.finishLoad w
      | .error e => s.loadFails e
    else s

end Sys2Proof.Machine
end

