-- ==== Sys2Proof/Machine/Ownership.lean ====
section
/-!
DEFINITION. Requests whose name is unknown, and the requests that change the owner: CLAIM and YIELD (R153, R155 to R158).
-/

namespace Sys2Proof.Machine

/-- UNKNOWN_REQUEST: a request whose name is not in the catalogue, from any node (R153 step 3). -/
def execUnknownRequest (src : Node) (tag name : Byte) (params : List Byte) (s : State) :
    Host.Outcome State Fault Refusal :=
  request src tag name params none (fun s _ => .answer s .unknownRequest .none) s

/-- The answer of a CLAIM that leaves the requester the owner (R157). -/
def claimed (s : State) (q : Request) : Act := .answer s .done (.owner (some q.src))

/-- CLAIM, by the owner at the moment it is taken, the FORCE flag and the part state (R157). -/
def claimRule (s : State) (q : Request) : Act :=
  match q.params with
  | [b] =>
    match readFlag b with
    | none => .answer s .badRequest .none
    | some force =>
      match s.mgmt.owner with
      | none => claimed (s.changeOwner (some q.src)) q
      | some o =>
        if o = q.src then claimed s q
        else if force = false then .answer s .notOwner (.owner (some o))
        else if s.start.part = .held then claimed (s.changeOwner (some q.src)) q
        else .answer s .wrongState .none
  | _ => .answer s .badRequest .none

/-- CLAIM. -/
def execClaim (src : Node) (tag : Byte) (params : List Byte) (s : State) : Host.Outcome State Fault Refusal :=
  request src tag (RequestName.code .claim) params (some .claim) claimRule s

/-- YIELD: an owner change that leaves no owner (R158). -/
def yieldRule (s : State) (q : Request) : Act :=
  match q.params with
  | [] => .answer (s.changeOwner none) .done .none
  | _ => .answer s .badRequest .none

/-- YIELD. -/
def execYieldOwnership (src : Node) (tag : Byte) (params : List Byte) (s : State) : Host.Outcome State Fault Refusal :=
  request src tag (RequestName.code .yieldOwnership) params (some .yieldOwnership) yieldRule s

end Sys2Proof.Machine
end

