-- ==== Sys2Proof/Machine/Reads.lean ====
section
/-!
DEFINITION. The reads open to every node: QUERY-STATUS, READ-ENTRY and READ-MODULE (R165 to R167).
-/

namespace Sys2Proof.Machine

/-- The values of R165 as they all stand now; the class bytes beside a scope of ALL or DISAGREE are free (log 11). -/
def State.statusReport (s : State) : StatusReport :=
  { part := s.start.part
    status := s.start.status
    ownNode := s.start.ownNode
    owner := s.mgmt.owner
    link := s.emitter.link
    mark := s.tables.mark
    generation := s.tables.generation
    activity := s.tables.activity
    activeCount := s.tables.active.entries.length
    stagingCount := s.tables.staging.entries.length
    queued := .ofFn fun c => (s.queue.lists.get c).length
    lost := s.queue.lost
    urgentCount := s.queue.urgent.length
    outstanding := s.emitter.outstanding.length
    nextNumber := s.emitter.nextNumber
    sweepState := s.sweep.state
    scope := s.sweep.scope
    cursor := s.sweep.cursor
    sweepNumber := s.sweep.number
    swept := s.sweep.count
    lastEnd := s.sweep.lastEnd
    arm := s.sweep.arm
    triggerRefused := s.sweep.triggerRefused
    cycle := s.sweep.cycle
    fErrors := s.ports.fErrors
    fRefused := s.ports.fRefused
    tErrors := s.ports.tErrors
    tRefused := s.ports.tRefused
    scopeClassByte := Config.freeByte s.freeCount
    armClassByte := Config.freeByte (s.freeCount + 1) }

/-- QUERY-STATUS changes nothing it reports (R165). -/
def queryStatusRule (s : State) (q : Request) : Act :=
  match q.params with
  | [] => .answer (s.withFreeCount (s.freeCount + 2)) .done (.status s.statusReport)
  | _ => .answer s .badRequest .none

/-- QUERY-STATUS. -/
def execQueryStatus (src : Node) (tag : Byte) (params : List Byte) (s : State) : Host.Outcome State Fault Refusal :=
  request src tag (RequestName.code .queryStatus) params (some .queryStatus) queryStatusRule s

/-- The bank that holds a role when the request is taken (R2). -/
def TableStore.role (t : TableStore) : BankRole → Bank
  | .active => t.active
  | .staging => t.staging

/-- The entry that READ-ENTRY finds (R166). -/
def Bank.read (b : Bank) : ReadMode → Option Entry
  | .exact k => b.entry? k
  | .next after => b.nextEntry after fun _ => true

/-- READ-ENTRY (R166). -/
def readEntryRule (s : State) (q : Request) : Act :=
  match q.params with
  | [role, mode, m, p] =>
    match readRole role, readMode mode m p with
    | some r, some md =>
      match (s.tables.role r).read md with
      | some e => .answer s .done (.entry e)
      | none => .answer s .noEntry .none
    | _, _ => .answer s .badRequest .none
  | _ => .answer s .badRequest .none

/-- READ-ENTRY. -/
def execReadEntry (src : Node) (tag : Byte) (params : List Byte) (s : State) : Host.Outcome State Fault Refusal :=
  request src tag (RequestName.code .readEntry) params (some .readEntry) readEntryRule s

/-- READ-MODULE (R167). -/
def readModuleRule (s : State) (q : Request) : Act :=
  match q.params with
  | [role, st] =>
    match readRole role, readStation st with
    | some r, some m => .answer s .done (.slot m ((s.tables.role r).slot? m))
    | _, _ => .answer s .badRequest .none
  | _ => .answer s .badRequest .none

/-- READ-MODULE. -/
def execReadModule (src : Node) (tag : Byte) (params : List Byte) (s : State) : Host.Outcome State Fault Refusal :=
  request src tag (RequestName.code .readModule) params (some .readModule) readModuleRule s

end Sys2Proof.Machine
end

