-- ==== Sys2Proof/Machine/Settings.lean ====
section
/-!
DEFINITION. The requests that act on the class settings, the part settings, the class lists and the outstanding list: SET-CLASS,
SET-PART, DISCARD-CLASS and ACK (R71, R88, R91, R92, R168).
-/

namespace Sys2Proof.Machine

/-- The refill timer after a SET-CLASS (R87): started by a change from period 0, stopped by a change to period 0, otherwise
running on. -/
def refillAfter (old new : Nat) (t : Timer) : Timer :=
  if new = 0 then .stopped else if old = 0 then .start new else t

/-- The four settings of a class replaced in one event; a credit above a lowered limit is set to it (R88). -/
def Emitter.setClass (e : Emitter) (c : ReportClass) (x : ClassSetting) : Emitter :=
  { e with
    classes := e.classes.set c x
    credits := e.credits.set c (min x.creditLimit (e.credits.get c))
    refill := e.refill.set c (refillAfter (e.classes.get c).period x.period (e.refill.get c)) }

/-- SET-CLASS (R88). -/
def setClassRule (s : State) (q : Request) : Act :=
  match readClassSetting q.params with
  | some (c, x) => .answer (s.withEmitter (s.emitter.setClass c x)) .done .none
  | none => .answer s .badRequest .none

/-- SET-CLASS. -/
def execSetClass (src : Node) (tag : Byte) (params : List Byte) (s : State) : Host.Outcome State Fault Refusal :=
  request src tag (RequestName.code .setClass) params (some .setClass) setClassRule s

/-- SET-PART (R168). -/
def setPartRule (s : State) (q : Request) : Act :=
  match readPartParams q.params with
  | some f =>
    let p := f.apply s.start.settings
    .answer (s.withStart { s.start with settings := p }) .done (.settings p)
  | none => .answer s .badRequest .none

/-- SET-PART. -/
def execSetPart (src : Node) (tag : Byte) (params : List Byte) (s : State) : Host.Outcome State Fault Refusal :=
  request src tag (RequestName.code .setPart) params (some .setPart) setPartRule s

/-- DISCARD-CLASS (R71). -/
def discardClassRule (s : State) (q : Request) : Act :=
  match q.params with
  | [b] =>
    match readClass b with
    | some c => .answer (s.withQueue (s.queue.discard c)) .done (.discarded (s.queue.lists.get c).length)
    | none => .answer s .badRequest .none
  | _ => .answer s .badRequest .none

/-- DISCARD-CLASS. -/
def execDiscardClass (src : Node) (tag : Byte) (params : List Byte) (s : State) : Host.Outcome State Fault Refusal :=
  request src tag (RequestName.code .discardClass) params (some .discardClass) discardClassRule s

/-- How many records an ACK of a number removes: those from the oldest up to it, if it lies within the outstanding range
(R91). -/
def ackedCount (number : Word) (l : List Outstanding) : Option Nat :=
  match l.head?, l.getLast? with
  | some oldest, some newest =>
    if (number - oldest.number).toNat ≤ (newest.number - oldest.number).toNat then
      some ((number - oldest.number).toNat + 1)
    else none
  | _, _ => none

/-- The outstanding list and the ack wait timer after an accepted ACK (R91). -/
def Emitter.acked (e : Emitter) (ackWait n : Nat) : Emitter :=
  { e with outstanding := e.outstanding.drop n, ackTimer := ackTimerFor e.link ackWait (e.outstanding.drop n) }

/-- ACK (R91, R92). -/
def ackRule (s : State) (q : Request) : Act :=
  match q.params with
  | [h, l] =>
    match ackedCount (word h l) s.emitter.outstanding with
    | some n =>
      .answer (s.withEmitter (s.emitter.acked s.start.settings.ackWait n)) .done
        (.acknowledged n (s.emitter.outstanding.drop n).length)
    | none => .answer s .staleAck (.outstandingCount s.emitter.outstanding.length)
  | _ => .answer s .badRequest .none

/-- ACK. -/
def execAck (src : Node) (tag : Byte) (params : List Byte) (s : State) : Host.Outcome State Fault Refusal :=
  request src tag (RequestName.code .ack) params (some .ack) ackRule s

end Sys2Proof.Machine
end

