-- ==== Sys2Proof/Machine/Staging.lean ====
section
/-!
DEFINITION. The staging requests, COPY-ACTIVE and COMMIT with the ends of the two operations (Section 7).
-/

namespace Sys2Proof.Machine

/-- STAGE-ENTRY (R118): BAD-REQUEST, TABLE-FULL, or the entry added or replaced with its run state emptied. -/
def stageEntryRule (s : State) (q : Request) : Act :=
  match readEntryConfig q.params with
  | none => .answer s .badRequest .none
  | some c =>
    if s.tables.hasRoom c.key then
      let t := s.tables.stageEntry c
      .answer (s.withTables t) .done
        (.staged (if (s.tables.staging.entry? c.key).isSome then .replaced else .added) t.staging.entries.length)
    else .answer s .tableFull (.stagingCount s.tables.staging.entries.length)

/-- STAGE-ENTRY. -/
def execStageEntry (src : Node) (tag : Byte) (params : List Byte) (s : State) : Host.Outcome State Fault Refusal :=
  request src tag (RequestName.code .stageEntry) params (some .stageEntry) stageEntryRule s

/-- UNSTAGE-ENTRY (R119). -/
def unstageEntryRule (s : State) (q : Request) : Act :=
  match q.params with
  | [m, p] =>
    match readPointKey m p with
    | none => .answer s .badRequest .none
    | some k =>
      match s.tables.staging.entry? k with
      | none => .answer s .noEntry .none
      | some _ =>
        let t := s.tables.setStaging (s.tables.staging.dropEntry k)
        .answer (s.withTables t) .done (.stagingCount t.staging.entries.length)
  | _ => .answer s .badRequest .none

/-- UNSTAGE-ENTRY. -/
def execUnstageEntry (src : Node) (tag : Byte) (params : List Byte) (s : State) : Host.Outcome State Fault Refusal :=
  request src tag (RequestName.code .unstageEntry) params (some .unstageEntry) unstageEntryRule s

/-- STAGE-MODULE (R120). -/
def stageModuleRule (s : State) (q : Request) : Act :=
  match readModuleListing q.params with
  | none => .answer s .badRequest .none
  | some (m, limit, cls) =>
    .answer (s.withTables (s.tables.stageModule m limit cls)) .done
      (.listed (if s.tables.staging.lists m then .restaged else .newlyListed))

/-- STAGE-MODULE. -/
def execStageModule (src : Node) (tag : Byte) (params : List Byte) (s : State) : Host.Outcome State Fault Refusal :=
  request src tag (RequestName.code .stageModule) params (some .stageModule) stageModuleRule s

/-- UNSTAGE-MODULE (R121). -/
def unstageModuleRule (s : State) (q : Request) : Act :=
  match q.params with
  | [st] =>
    match readStation st with
    | none => .answer s .badRequest .none
    | some m =>
      .answer (s.withTables (s.tables.setStaging (s.tables.staging.dropSlot m))) .done
        (.unlisted (if s.tables.staging.lists m then .wasListed else .wasUnlisted))
  | _ => .answer s .badRequest .none

/-- UNSTAGE-MODULE. -/
def execUnstageModule (src : Node) (tag : Byte) (params : List Byte) (s : State) : Host.Outcome State Fault Refusal :=
  request src tag (RequestName.code .unstageModule) params (some .unstageModule) unstageModuleRule s

/-- CLEAR-STAGING (R122). -/
def clearStagingRule (s : State) (q : Request) : Act :=
  match q.params with
  | [] =>
    .answer (s.withTables s.tables.clearStaging) .done
      (.cleared s.tables.staging.entries.length s.tables.staging.slots.length)
  | _ => .answer s .badRequest .none

/-- CLEAR-STAGING. -/
def execClearStaging (src : Node) (tag : Byte) (params : List Byte) (s : State) : Host.Outcome State Fault Refusal :=
  request src tag (RequestName.code .clearStaging) params (some .clearStaging) clearStagingRule s

/-- COMMIT or COPY-ACTIVE taken for execution: the table activity, the request in progress and the cache's IN-PROGRESS entry are
set, and no response is made now (R123, R124, R163, R164). -/
def State.begin (s : State) (q : Request) (o : Operation) (a : Activity) : State :=
  ((s.withTables { s.tables with activity := a }).withMgmt
    { s.mgmt with inProgress := some ⟨o, q.tag, q.src⟩ }).setCache q.tag .inProgress

/-- The rule of an operation that takes time: BUSY while the fifth place still holds a final response (R123, R124). -/
def operationRule (o : Operation) (a : Activity) (s : State) (q : Request) : Act :=
  match q.params with
  | [] => if s.finalWaits then .answer s .busy .none else .silent (s.begin q o a)
  | _ => .answer s .badRequest .none

/-- COPY-ACTIVE (R123). -/
def copyActiveRule (s : State) (q : Request) : Act := operationRule .copyActive .copying s q

/-- COPY-ACTIVE. -/
def execCopyActive (src : Node) (tag : Byte) (params : List Byte) (s : State) : Host.Outcome State Fault Refusal :=
  request src tag (RequestName.code .copyActive) params (some .copyActive) copyActiveRule s

/-- The copy's completion (R123). -/
def State.completeCopy (s : State) : State :=
  let copy := s.tables.active.copied
  (s.withTables { s.tables.setStaging copy with activity := .idle }).finalResponse .done
    (.copied copy.entries.length copy.slots.length)

/-- COPY_ACTIVE_COMPLETION. -/
def execCopyActiveCompletion (s : State) : Host.Outcome State Fault Refusal :=
  whenReleased s fun s => if s.tables.activity = .copying then s.completeCopy else s

/-- COMMIT (R124). -/
def commitRule (s : State) (q : Request) : Act := operationRule .commit .committing s q

/-- COMMIT. -/
def execCommit (src : Node) (tag : Byte) (params : List Byte) (s : State) : Host.Outcome State Fault Refusal :=
  request src tag (RequestName.code .commit) params (some .commit) commitRule s

/-- The commit is refused (R125): the activity IDLE and the lowest key named, nothing else changed. -/
def State.refuseCommit (s : State) (k : PointKey) : State :=
  (s.withTables { s.tables with activity := .idle }).finalResponse .unlistedModule (.unlistedKey k)

/-- COMMIT_REFUSAL: the check finds an entry of an unlisted module (R125). -/
def execCommitRefusal (s : State) : Host.Outcome State Fault Refusal :=
  whenReleased s fun s =>
    if s.tables.activity = .committing then
      match s.tables.staging.firstUnlisted with
      | some k => s.refuseCommit k
      | none => s
    else s

/-- The completion of a commit (R126 to R128): transfer, swap, generation, activity IDLE, DONE. -/
def State.completeCommit (s : State) : State :=
  let t := s.tables.commit s.isRunning
  (s.withTables t).finalResponse .done (.committed t.generation t.mark)

/-- COMMIT_COMPLETION: the check has passed (R125) and the commit completes. -/
def execCommitCompletion (s : State) : Host.Outcome State Fault Refusal :=
  whenReleased s fun s =>
    if s.tables.activity = .committing ∧ s.tables.staging.firstUnlisted = none then s.completeCommit else s

end Sys2Proof.Machine
end

