-- ==== Sys2Proof/Machine/Sweeps.lean ====
section
/-!
DEFINITION. The sweep and mark requests (R104, R109, R115) and the taking of a SCAN-MARK (R114, R116).
-/

namespace Sys2Proof.Machine

/-- A sweep starts with a scope: number incremented, cursor before the first key, count 0, ACTIVE (R104). -/
def SweepGenerator.started (g : SweepGenerator) (scope : Scope) : SweepGenerator :=
  { g with state := .active, scope := some scope, cursor := none, number := g.number + 1, count := 0 }

/-- SWEEP-START (R104). -/
def sweepStartRule (s : State) (q : Request) : Act :=
  match q.params with
  | [code, c] =>
    match readScope code c with
    | none => .answer s .badRequest .none
    | some scope =>
      match s.sweep.state with
      | .idle => .answer (s.withSweep (s.sweep.started scope)) .done (.sweepNumber (s.sweep.number + 1))
      | .active | .stopping => .answer s .busy .none
  | _ => .answer s .badRequest .none

/-- SWEEP-START. -/
def execSweepStart (src : Node) (tag : Byte) (params : List Byte) (s : State) : Host.Outcome State Fault Refusal :=
  request src tag (RequestName.code .sweepStart) params (some .sweepStart) sweepStartRule s

/-- SWEEP-STOP (R109). -/
def sweepStopRule (s : State) (q : Request) : Act :=
  match q.params with
  | [] =>
    match s.sweep.state with
    | .active => .answer (s.withSweep { s.sweep with state := .stopping }) .done .none
    | .stopping => .answer s .done .none
    | .idle => .answer s .wrongState .none
  | _ => .answer s .badRequest .none

/-- SWEEP-STOP. -/
def execSweepStop (src : Node) (tag : Byte) (params : List Byte) (s : State) : Host.Outcome State Fault Refusal :=
  request src tag (RequestName.code .sweepStop) params (some .sweepStop) sweepStopRule s

/-- ARM-MARK (R115): the mark replaced, TRIGGER-REFUSED cleared. -/
def armMarkRule (s : State) (q : Request) : Act :=
  match q.params with
  | [h, l, code, c] =>
    match readScope code c with
    | none => .answer s .badRequest .none
    | some scope =>
      .answer (s.withSweep { s.sweep with arm := some ⟨word h l, scope⟩, triggerRefused := false }) .done .none
  | _ => .answer s .badRequest .none

/-- ARM-MARK. -/
def execArmMark (src : Node) (tag : Byte) (params : List Byte) (s : State) : Host.Outcome State Fault Refusal :=
  request src tag (RequestName.code .armMark) params (some .armMark) armMarkRule s

/-- DISARM-MARK (R115). -/
def disarmMarkRule (s : State) (q : Request) : Act :=
  match q.params with
  | [] => .answer (s.withSweep { s.sweep with arm := none }) .done .none
  | _ => .answer s .badRequest .none

/-- DISARM-MARK. -/
def execDisarmMark (src : Node) (tag : Byte) (params : List Byte) (s : State) : Host.Outcome State Fault Refusal :=
  request src tag (RequestName.code .disarmMark) params (some .disarmMark) disarmMarkRule s

/-- An armed mark that matches is disarmed, and starts a sweep if the part is RUNNING, the sweep IDLE and an owner present;
otherwise TRIGGER-REFUSED is set (R116). -/
def SweepGenerator.trigger (g : SweepGenerator) (running : Bool) (owner : Option Node) (scope : Scope) : SweepGenerator :=
  if running = true ∧ g.state = .idle ∧ owner.isSome = true then { g with arm := none }.started scope
  else { g with arm := none, triggerRefused := true }

/-- A SCAN-MARK taken: the current cycle is set, and the armed mark compared with it (R114, R116). -/
def SweepGenerator.mark (g : SweepGenerator) (running : Bool) (owner : Option Node) (cycle : Word) : SweepGenerator :=
  let g1 := { g with cycle := some cycle }
  match g.arm with
  | some a => if a.cycle = cycle then g1.trigger running owner a.scope else g1
  | none => g1

/-- The Sweep Generator takes a SCAN-MARK in LOADING, HELD and RUNNING, and not in SCRUB (R114, R140). -/
def State.takeMark (s : State) (cycle : Word) : State :=
  match s.start.part with
  | .scrub => s
  | .loading | .held | .running => s.withSweep (s.sweep.mark s.isRunning s.mgmt.owner cycle)

end Sys2Proof.Machine
end

