-- ==== Sys2Proof/Machine/TrunkFrames.lean ====
section
/-!
DEFINITION. Frames received on the T-port (R138 to R140): the routing, a request handed to the Management Unit with the rule of
its name, and a SCAN-MARK taken and copied down.
-/

namespace Sys2Proof.Machine

/-- The rule of each request of the catalogue (Section 9.8). The pin levels matter only to a RESTART of level COLD. -/
def ruleOf (pins : Pins) : RequestName → State → Request → Act
  | .claim => claimRule
  | .yieldOwnership => yieldRule
  | .queryStatus => queryStatusRule
  | .readEntry => readEntryRule
  | .readModule => readModuleRule
  | .stageEntry => stageEntryRule
  | .unstageEntry => unstageEntryRule
  | .stageModule => stageModuleRule
  | .unstageModule => unstageModuleRule
  | .clearStaging => clearStagingRule
  | .copyActive => copyActiveRule
  | .commit => commitRule
  | .setClass => setClassRule
  | .setPart => setPartRule
  | .discardClass => discardClassRule
  | .ack => ackRule
  | .sweepStart => sweepStartRule
  | .sweepStop => sweepStopRule
  | .armMark => armMarkRule
  | .disarmMark => disarmMarkRule
  | .hold => holdRule
  | .release => releaseRule
  | .restart => restartRule pins

/-- A request frame handed to the Management Unit by its name byte (R139, R151, R153). -/
def State.requestFrame (s : State) (pins : Pins) (q : Request) : State :=
  s.handRequest q (RequestName.ofByte q.name) fun s q =>
    match RequestName.ofByte q.name with
    | some n => ruleOf pins n s q
    | none => .answer s .unknownRequest .none

/-- The cycle stamp of a DOWNLINK-FULL that a SCAN-MARK's own copy raises: R114 leaves open whether the report is raised before
or after the mark is taken (log 13). -/
def State.overflowCycle (s : State) (after : State) : Option Word :=
  if Config.freeOrder s.freeCount % 2 = 0 then after.sweep.cycle else s.sweep.cycle

/-- A broadcast SCAN-MARK (R140): taken by the Sweep Generator, and its unchanged copy offered to the Down FIFO. A copy that meets
a full FIFO raises a DOWNLINK-FULL (R144). -/
def State.scanMark (s : State) (bytes : List Byte) (cycle : Word) : State :=
  let after := s.takeMark cycle
  if s.ports.down.length < Config.fifoCapacity ∨ s.started = false then after.offerDown bytes
  else
    (after.raise [⟨headReport .downlinkFull s.start.settings.headClass (s.overflowCycle after), false⟩]).withFreeCount
      (s.freeCount + 1)

/-- A good frame routed on the T-port by the first line of R138 that it meets. -/
def State.routeTrunk (s : State) (pins : Pins) (bytes : List Byte) (f : LinkFrame) : State :=
  if f.dest = s.start.ownNode then
    match f.body with
    | .mgmtReq payload => s.requestFrame pins (readRequest f.src payload)
    | _ => s.tRefuse
  else
    match f.body with
    | .scanMark cycle => if f.dest.toNat = 127 then s.scanMark bytes cycle else s.tRefuse
    | _ =>
      if f.dest.toNat = 0 then s.tRefuse
      else if f.dest.toNat ≤ 63 ∨ f.dest.toNat = 127 then s.offerDown bytes
      else s

/-- T_PORT_FRAME_RECEIVED: the receive checks and the routing (R134, R138). -/
def execTPortFrameReceived (bytes : List Byte) (pins : Pins) (s : State) : Host.Outcome State Fault Refusal :=
  whenReleased s fun s =>
    match receive false bytes with
    | some f => s.routeTrunk pins bytes f
    | none => s.tError

end Sys2Proof.Machine
end

