-- ==== Sys2Proof/Machine/Dispatch.lean ====
section
/-!
DEFINITION. One arm for each command: one direct call of its meaning.
-/

namespace Sys2Proof.Machine

def exec (i : Instr) (s : State) : Host.Outcome State Fault Refusal :=
  match i with
  | .pinReset => Sys2Proof.Machine.execPinReset s
  | .endOfPinReset pins => Sys2Proof.Machine.execEndOfPinReset pins s
  | .endOfScrub => Sys2Proof.Machine.execEndOfScrub s
  | .imageHeaderRead answer => Sys2Proof.Machine.execImageHeaderRead answer s
  | .imageRecordRead answer => Sys2Proof.Machine.execImageRecordRead answer s
  | .imageCrcRead answer => Sys2Proof.Machine.execImageCrcRead answer s
  | .fPortFrameReceived bytes => Sys2Proof.Machine.execFPortFrameReceived bytes s
  | .tPortFrameReceived bytes pins => Sys2Proof.Machine.execTPortFrameReceived bytes pins s
  | .unknownRequest src tag name params => Sys2Proof.Machine.execUnknownRequest src tag name params s
  | .claim src tag params => Sys2Proof.Machine.execClaim src tag params s
  | .yieldOwnership src tag params => Sys2Proof.Machine.execYieldOwnership src tag params s
  | .queryStatus src tag params => Sys2Proof.Machine.execQueryStatus src tag params s
  | .readEntry src tag params => Sys2Proof.Machine.execReadEntry src tag params s
  | .readModule src tag params => Sys2Proof.Machine.execReadModule src tag params s
  | .stageEntry src tag params => Sys2Proof.Machine.execStageEntry src tag params s
  | .unstageEntry src tag params => Sys2Proof.Machine.execUnstageEntry src tag params s
  | .stageModule src tag params => Sys2Proof.Machine.execStageModule src tag params s
  | .unstageModule src tag params => Sys2Proof.Machine.execUnstageModule src tag params s
  | .clearStaging src tag params => Sys2Proof.Machine.execClearStaging src tag params s
  | .copyActive src tag params => Sys2Proof.Machine.execCopyActive src tag params s
  | .copyActiveCompletion => Sys2Proof.Machine.execCopyActiveCompletion s
  | .commit src tag params => Sys2Proof.Machine.execCommit src tag params s
  | .commitRefusal => Sys2Proof.Machine.execCommitRefusal s
  | .commitCompletion => Sys2Proof.Machine.execCommitCompletion s
  | .setClass src tag params => Sys2Proof.Machine.execSetClass src tag params s
  | .setPart src tag params => Sys2Proof.Machine.execSetPart src tag params s
  | .discardClass src tag params => Sys2Proof.Machine.execDiscardClass src tag params s
  | .ack src tag params => Sys2Proof.Machine.execAck src tag params s
  | .sweepStart src tag params => Sys2Proof.Machine.execSweepStart src tag params s
  | .sweepStop src tag params => Sys2Proof.Machine.execSweepStop src tag params s
  | .armMark src tag params => Sys2Proof.Machine.execArmMark src tag params s
  | .disarmMark src tag params => Sys2Proof.Machine.execDisarmMark src tag params s
  | .hold src tag params => Sys2Proof.Machine.execHold src tag params s
  | .release src tag params => Sys2Proof.Machine.execRelease src tag params s
  | .warmRestart src tag => Sys2Proof.Machine.execWarmRestart src tag s
  | .coldRestart src tag pins => Sys2Proof.Machine.execColdRestart src tag pins s
  | .silenceExpiry station => Sys2Proof.Machine.execSilenceExpiry station s
  | .ackWaitExpiry => Sys2Proof.Machine.execAckWaitExpiry s
  | .hailExpiry => Sys2Proof.Machine.execHailExpiry s
  | .refillExpiry cls => Sys2Proof.Machine.execRefillExpiry cls s
  | .transmitGrant => Sys2Proof.Machine.execTransmitGrant s
  | .tPortFrameEnd => Sys2Proof.Machine.execTPortFrameEnd s
  | .fPortTransmitStart => Sys2Proof.Machine.execFPortTransmitStart s
  | .fPortTransmitEnd => Sys2Proof.Machine.execFPortTransmitEnd s

end Sys2Proof.Machine
end

