-- ==== Sys2Proof/Machine/Idle.lean ====
section
/-!
DEFINITION. What the part does of itself when no command waits (DESIGN CHOICE, log 1): the Transmit Arbiter's grant and the
F-port's transmission start come about whenever they can (R144, R146), the timers that have run out expire, and with nothing
due one millisecond passes. What is due is put into the queue of commands.
-/

namespace Sys2Proof.Machine

/-- The grant that is due: the T-port transmitter is free and a frame waits (R146). -/
def State.dueGrant (s : State) : List Instr :=
  if s.ports.tSending = none ∧ s.nextGrant.isSome = true then [.transmitGrant] else []

/-- The transmission start that is due: the F-port transmitter is free and the Down FIFO is not empty (R144). -/
def State.dueStart (s : State) : List Instr :=
  if s.ports.fSending = none ∧ s.ports.down ≠ [] then [.fPortTransmitStart] else []

/-- The commands that are due; none while RESET is held (R174). -/
def State.due (s : State) : List Instr :=
  if s.start.resetHeld then [] else s.dueGrant ++ s.dueStart ++ s.dueExpiries

/-- A step with no command waiting: what is due is put into the queue, or one millisecond passes. -/
def State.idle (s : State) : State :=
  match s.due with
  | [] => s.tick
  | c :: cs => s.withPending (c :: cs)

end Sys2Proof.Machine
end

