-- ==== Sys2Proof/WellFormed.lean ====
section
/-!
DEFINITION. Which commands are well formed: the ranges that the manual gives to what comes with a command.
A frame command is always well formed, since any string of bytes can be received and the receive checks (R134) judge it.
-/

namespace Sys2Proof

/-- A request's source is a node 1 to 126, and its payload (tag, name, parameters) is at most 240 bytes (R133). -/
def requestOk (src : Node) (params : List Byte) : Bool :=
  validSource src && decide (params.length + 2 ≤ 240)

/-- A name byte of the request catalogue: 1 to 23 (R187). -/
def inCatalogue (name : Byte) : Bool := 1 ≤ name.toNat && name.toNat ≤ 23

/-- The well-formed commands. -/
def Instr.wellFormed : Instr → Bool
  | .pinReset | .endOfPinReset _ | .endOfScrub => true
  | .imageHeaderRead a => decide (a.length ≤ 5)
  | .imageRecordRead a => decide (a.length ≤ 257)
  | .imageCrcRead a => decide (a.length ≤ 2)
  | .fPortFrameReceived _ | .tPortFrameReceived _ _ => true
  | .unknownRequest src _ name params => requestOk src params && !inCatalogue name
  | .claim src _ ps | .yieldOwnership src _ ps | .queryStatus src _ ps | .readEntry src _ ps
  | .readModule src _ ps | .stageEntry src _ ps | .unstageEntry src _ ps | .stageModule src _ ps
  | .unstageModule src _ ps | .clearStaging src _ ps | .copyActive src _ ps | .commit src _ ps
  | .setClass src _ ps | .setPart src _ ps | .discardClass src _ ps | .ack src _ ps
  | .sweepStart src _ ps | .sweepStop src _ ps | .armMark src _ ps | .disarmMark src _ ps
  | .hold src _ ps | .release src _ ps => requestOk src ps
  | .warmRestart src _ | .coldRestart src _ _ => requestOk src []
  | .copyActiveCompletion | .commitRefusal | .commitCompletion => true
  | .silenceExpiry station => decide (station ≠ 0)
  | .ackWaitExpiry | .hailExpiry | .refillExpiry _ => true
  | .transmitGrant | .tPortFrameEnd | .fPortTransmitStart | .fPortTransmitEnd => true

end Sys2Proof
end

