-- ==== Sys2Proof/Safety.lean ====
section
/-!
DEFINITION. What counts as a sound state of the 2480, in the terms the claims use: the laws that the manual gives for the
state between two commands, one predicate for each block, all of them decidable; and the premises under which a request reaches
its own rule.
-/

namespace Sys2Proof.Machine

/-! ## Values in their ranges -/

/-- The test fields of an entry obey low ≤ high (R7). -/
def Test.inRange : Test → Bool
  | .pattern _ _ => true
  | .band low high _ => decide (low.toNat ≤ high.toNat)

/-- The configuration fields of a point entry in the ranges of Section 1.2. -/
abbrev EntryConfig.inRange (c : EntryConfig) : Prop :=
  1 ≤ c.key.station.val ∧ c.test.inRange = true ∧ 1 ≤ c.confirm ∧ c.confirm ≤ 15

/-- The fields of a listed slot in the ranges of R15. -/
abbrev Slot.inRange (x : Slot) : Prop := 1 ≤ x.station.val ∧ 10 ≤ x.limit ∧ x.limit ≤ 2550 ∧ x.limit % 10 = 0

/-- The four settings of a class in the ranges of R86. -/
abbrev ClassSetting.inRange (x : ClassSetting) : Prop := 1 ≤ x.creditLimit ∧ x.creditLimit ≤ 63 ∧ x.period ≤ 255

/-- The part settings in the ranges, and on the steps, of R168. -/
abbrev PartSettings.inRange (p : PartSettings) : Prop :=
  onStep 5 1275 5 p.ackWait = true ∧ onStep 1 7 1 p.retryLimit = true ∧ onStep 100 25500 100 p.hailInterval = true

/-! ## Table Store -/

/-- The canonical form of a bank: entries in strictly ascending key order, so no key twice, at most 512 of them (R4); listed slots
in strictly ascending station order; every field in its range. -/
abbrev Bank.canonical (b : Bank) : Prop :=
  Rising Entry.index b.entries ∧ b.entries.length ≤ Config.tableCapacity ∧ Rising Slot.index b.slots ∧
    (∀ e ∈ b.entries, e.config.inRange) ∧ ∀ x ∈ b.slots, x.inRange

/-- The four relations of R12 between the fields of a run state and its entry's confirm count. -/
abbrev RunState.consistent (confirm : Nat) (r : RunState) : Prop :=
  (r.candidate = none ↔ r.runLength = 0) ∧ r.candidate.map RawVerdict.toVerdict ≠ some r.verdict ∧ r.runLength < confirm ∧
    (r.verdict = .faulted → r.candidate = none ∧ r.runLength = 0)

/-- Both banks are in canonical form (R4, R15), every entry's run state obeys R12, and every ACTIVE entry's module is listed in
the ACTIVE bank (R17). -/
abbrev TableStore.sound (t : TableStore) : Prop :=
  t.bankA.canonical ∧ t.bankB.canonical ∧ (∀ e ∈ t.bankA.entries ++ t.bankB.entries, e.run.consistent e.config.confirm) ∧
    ∀ e ∈ t.active.entries, t.active.lists e.config.key.station = true

/-- The silence timers: stopped in the STAGING bank (R45); in the ACTIVE bank, running in RUNNING exactly for the modules that
are not SILENT (R46, R49, R53), and stopped otherwise (R45). In SCRUB and LOADING nothing is ACTIVE and no operation is in
progress (R20). -/
abbrev State.supervised (s : State) : Prop :=
  (∀ x ∈ s.tables.staging.slots, x.timer.isRunning = false) ∧
    (∀ x ∈ s.tables.active.slots, x.timer.isRunning = true ↔ s.start.part = .running ∧ x.state ≠ .silent) ∧
    (s.started = false → s.tables.active = .empty ∧ s.tables.activity = .idle)

/-! ## Report Queue -/

/-- Every report record that is held: unsent in the queue, or outstanding with the Emitter (R57). -/
def State.records (s : State) : List Report := s.queue.unsent ++ s.emitter.outstanding.map Outstanding.report

/-- The laws of the lists: each class list holds its own class, without urgent mark; the urgent list holds marked records; at
most 256 and 4 (R60, R66, R67); no SWEEP or SWEEP-END in either (R58); the counts in their ranges (R57, R62). -/
abbrev State.queueSound (s : State) : Prop :=
  (∀ c : ReportClass, ∀ r ∈ s.queue.lists.get c, r.cls = c ∧ r.urgent = false) ∧ (∀ r ∈ s.queue.urgent, r.urgent = true) ∧
    s.queue.pooled ≤ Config.poolCapacity ∧ s.queue.urgent.length ≤ Config.urgentCapacity ∧
    (∀ r ∈ s.queue.unsent, r.isSweep = false) ∧ (∀ c : ReportClass, s.queue.lost.get c ≤ Config.countMax) ∧
    ∀ r ∈ s.records, 1 ≤ r.repeatCount ∧ r.repeatCount ≤ Config.countMax ∧ r.lostBefore ≤ Config.countMax

/-- No two records held in the urgent list and the class lists together have the same key and the same kind (R64). -/
abbrev ReportQueue.distinct (q : ReportQueue) : Prop := q.unsent.Pairwise fun r x => r.matches x = false

/-! ## Report Emitter -/

/-- The numbers of `n` outstanding records when the counter stands at `next`: consecutive modulo 65536, the newest just below the
counter (R79, R84). -/
def consecutiveNumbers (next : Word) (n : Nat) : List Word := (List.range n).map fun i => next - BitVec.ofNat 16 (n - i)

/-- The oldest outstanding record is SENT (R89). -/
def oldestIsSent : List Outstanding → Bool
  | o :: _ => decide (o.transmit = .sent)
  | [] => false

/-- At most 32 outstanding records, with consecutive numbers (R79); and, while RESET is not held, the ack wait timer runs exactly
while the oldest is SENT and the link NORMAL (R89). -/
abbrev State.outstandingSound (s : State) : Prop :=
  s.emitter.outstanding.length ≤ Config.outstandingCapacity ∧
    s.emitter.outstanding.map Outstanding.number = consecutiveNumbers s.emitter.nextNumber s.emitter.outstanding.length ∧
    (s.start.resetHeld = false →
      (s.emitter.ackTimer.isRunning = true ↔ oldestIsSent s.emitter.outstanding = true ∧ s.emitter.link = .normal))

/-- Every setting, current or pending, in its range (R86, R168); each credit between 0 and its credit limit (R86); each retry count
at most 7 (R79). -/
abbrev State.settingsSound (s : State) : Prop :=
  (∀ c : ReportClass, (s.emitter.classes.get c).inRange ∧ s.emitter.credits.get c ≤ (s.emitter.classes.get c).creditLimit) ∧
    s.start.settings.inRange ∧ (∀ c : ReportClass, (s.start.loader.classes.get c).inRange) ∧ s.start.loader.settings.inRange ∧
    ∀ o ∈ s.emitter.outstanding, o.retry ≤ 7

/-- Ownership, link and ALERT: without an owner nothing is outstanding and no sweep is in progress (R79, R112); there is none in
SCRUB and LOADING (R154); while DEAF there is an owner, a record is outstanding, the hail timer runs and the ack wait timer is
stopped, while NORMAL the hail timer is stopped and no HAIL is pending (R94 to R96); ALERT is asserted exactly while the link
is DEAF or the start alert is set (R180). -/
abbrev State.linkSound (s : State) : Prop :=
  (s.mgmt.owner = none → s.emitter.outstanding = [] ∧ s.sweep.state = .idle) ∧ (s.started = false → s.mgmt.owner = none) ∧
    (s.emitter.link = .deaf →
      s.mgmt.owner ≠ none ∧ s.emitter.outstanding ≠ [] ∧ s.emitter.hailTimer.isRunning = true ∧
        s.emitter.ackTimer.isRunning = false) ∧
    (s.emitter.link = .normal → s.emitter.hailTimer.isRunning = false ∧ s.emitter.hailPending = false) ∧
    (s.start.alert = true ↔ s.emitter.link = .deaf ∨ s.start.startAlert = true)

/-! ## Sweep, requests and ports -/

/-- The response list and the two FIFOs within their places (R143 to R145); an operation is in progress exactly while the table
activity is not IDLE, and the fifth place is then free (R3, R164); the repeat cache holds an entry only with an owner, and there
is neither in SCRUB and LOADING (R154, R161); a sweep in progress has a scope (R104) and has swept at most 512 (R103). -/
abbrev State.requestsSound (s : State) : Prop :=
  s.requestResponses ≤ Config.responseCapacity ∧ (s.ports.responses.filter fun r => r.final).length ≤ 1 ∧
    s.ports.up.length ≤ Config.fifoCapacity ∧ s.ports.down.length ≤ Config.fifoCapacity ∧
    (s.tables.activity = .idle ↔ s.mgmt.inProgress = none) ∧ (s.tables.activity ≠ .idle → s.finalWaits = false) ∧
    (s.mgmt.owner = none → s.mgmt.cache = none) ∧
    (s.started = false → s.mgmt.owner = none ∧ s.tables.activity = .idle) ∧
    (s.sweep.state ≠ .idle → s.sweep.scope ≠ none) ∧ s.sweep.count ≤ Config.sweptMax

/-- Every law of this file at once. -/
abbrev State.sound (s : State) : Prop :=
  s.tables.sound ∧ s.supervised ∧ s.queueSound ∧ s.queue.distinct ∧ s.outstandingSound ∧ s.settingsSound ∧ s.linkSound ∧
    s.requestsSound

/-! ## Requests -/

/-- The request that a command stands for, if it is one. -/
def commandRequest : Instr → Option Request
  | .unknownRequest src tag name ps => some ⟨src, tag, name, ps⟩
  | .claim src tag ps => some ⟨src, tag, RequestName.code .claim, ps⟩
  | .yieldOwnership src tag ps => some ⟨src, tag, RequestName.code .yieldOwnership, ps⟩
  | .queryStatus src tag ps => some ⟨src, tag, RequestName.code .queryStatus, ps⟩
  | .readEntry src tag ps => some ⟨src, tag, RequestName.code .readEntry, ps⟩
  | .readModule src tag ps => some ⟨src, tag, RequestName.code .readModule, ps⟩
  | .stageEntry src tag ps => some ⟨src, tag, RequestName.code .stageEntry, ps⟩
  | .unstageEntry src tag ps => some ⟨src, tag, RequestName.code .unstageEntry, ps⟩
  | .stageModule src tag ps => some ⟨src, tag, RequestName.code .stageModule, ps⟩
  | .unstageModule src tag ps => some ⟨src, tag, RequestName.code .unstageModule, ps⟩
  | .clearStaging src tag ps => some ⟨src, tag, RequestName.code .clearStaging, ps⟩
  | .copyActive src tag ps => some ⟨src, tag, RequestName.code .copyActive, ps⟩
  | .commit src tag ps => some ⟨src, tag, RequestName.code .commit, ps⟩
  | .setClass src tag ps => some ⟨src, tag, RequestName.code .setClass, ps⟩
  | .setPart src tag ps => some ⟨src, tag, RequestName.code .setPart, ps⟩
  | .discardClass src tag ps => some ⟨src, tag, RequestName.code .discardClass, ps⟩
  | .ack src tag ps => some ⟨src, tag, RequestName.code .ack, ps⟩
  | .sweepStart src tag ps => some ⟨src, tag, RequestName.code .sweepStart, ps⟩
  | .sweepStop src tag ps => some ⟨src, tag, RequestName.code .sweepStop, ps⟩
  | .armMark src tag ps => some ⟨src, tag, RequestName.code .armMark, ps⟩
  | .disarmMark src tag ps => some ⟨src, tag, RequestName.code .disarmMark, ps⟩
  | .hold src tag ps => some ⟨src, tag, RequestName.code .hold, ps⟩
  | .release src tag ps => some ⟨src, tag, RequestName.code .release, ps⟩
  | .warmRestart src tag => some ⟨src, tag, RequestName.code .restart, [1]⟩
  | .coldRestart src tag _ => some ⟨src, tag, RequestName.code .restart, [2]⟩
  | .pinReset | .endOfPinReset _ | .endOfScrub | .imageHeaderRead _ | .imageRecordRead _ | .imageCrcRead _
  | .fPortFrameReceived _ | .tPortFrameReceived _ _ | .copyActiveCompletion | .commitRefusal | .commitCompletion
  | .silenceExpiry _ | .ackWaitExpiry | .hailExpiry | .refillExpiry _ | .transmitGrant | .tPortFrameEnd
  | .fPortTransmitStart | .fPortTransmitEnd => none

/-- The catalogue name of a request command; none for a request whose name is unknown. -/
def commandName : Instr → Option RequestName
  | .claim _ _ _ => some .claim
  | .yieldOwnership _ _ _ => some .yieldOwnership
  | .queryStatus _ _ _ => some .queryStatus
  | .readEntry _ _ _ => some .readEntry
  | .readModule _ _ _ => some .readModule
  | .stageEntry _ _ _ => some .stageEntry
  | .unstageEntry _ _ _ => some .unstageEntry
  | .stageModule _ _ _ => some .stageModule
  | .unstageModule _ _ _ => some .unstageModule
  | .clearStaging _ _ _ => some .clearStaging
  | .copyActive _ _ _ => some .copyActive
  | .commit _ _ _ => some .commit
  | .setClass _ _ _ => some .setClass
  | .setPart _ _ _ => some .setPart
  | .discardClass _ _ _ => some .discardClass
  | .ack _ _ _ => some .ack
  | .sweepStart _ _ _ => some .sweepStart
  | .sweepStop _ _ _ => some .sweepStop
  | .armMark _ _ _ => some .armMark
  | .disarmMark _ _ _ => some .disarmMark
  | .hold _ _ _ => some .hold
  | .release _ _ _ => some .release
  | .warmRestart _ _ | .coldRestart _ _ _ => some .restart
  | .unknownRequest _ _ _ _ => none
  | .pinReset | .endOfPinReset _ | .endOfScrub | .imageHeaderRead _ | .imageRecordRead _ | .imageCrcRead _
  | .fPortFrameReceived _ | .tPortFrameReceived _ _ | .copyActiveCompletion | .commitRefusal | .commitCompletion
  | .silenceExpiry _ | .ackWaitExpiry | .hailExpiry | .refillExpiry _ | .transmitGrant | .tPortFrameEnd
  | .fPortTransmitStart | .fPortTransmitEnd => none

/-- A request from `src` is handed to the Management Unit and judged: RESET is released, the part HELD or RUNNING, the response
list has a free place for it (R139), and the frame that carries it is a good one (R133). -/
abbrev State.takes (s : State) (src : Node) (params : List Byte) : Prop :=
  s.start.resetHeld = false ∧ s.started = true ∧ s.requestResponses < Config.responseCapacity ∧ requestOk src params = true

/-- A request of the owner reaches its own rule whatever its name: it is taken, the link is NORMAL, its tag is not the repeat
cache's, and no commit or copy is in progress (R153). -/
abbrev State.ready (s : State) (src : Node) (tag : Byte) (params : List Byte) : Prop :=
  s.takes src params ∧ s.mgmt.owner = some src ∧ s.emitter.link = .normal ∧ s.mgmt.cached tag = none ∧
    s.tables.activity = .idle

/-- The response joins the back of the response list (R145, R151). -/
def State.replied (s : State) (r : Response) : State :=
  { s with ports := { s.ports with responses := s.ports.responses ++ [r] } }

/-- The owner's request is answered: the response joins the response list and becomes the repeat cache's entry (R151, R163). -/
def State.answered (s : State) (src : Node) (tag name : Byte) (status : Status) (results : Results) : State :=
  { s with
    ports := { s.ports with responses := s.ports.responses ++ [⟨src, tag, name, status, results, false⟩] }
    mgmt := { s.mgmt with cache := some ⟨tag, .held ⟨src, tag, name, status, results, false⟩⟩ } }

/-- What a failed load leaves (R178, R180): STAGING empty, IMAGE-BAD with the reason, the restart notice due, the start alert set
and ALERT asserted, the part HELD, the pending settings dropped. -/
def State.loadFailed (s : State) (reason : LoadFailure) : State :=
  { s with
    tables := s.tables.setStaging .empty
    start :=
      { s.start with
        part := .held, status := .imageBad reason, restartDue := true
        startAlert := true, alert := true, loader := .atRest } }

end Sys2Proof.Machine
end

