-- ==== Sys2Proof/Certificates/Slice0/Obligations.lean ====
section
/-!
DEFINITION. The statements for the provers, in the order of OBLIGATIONS.json: the step and the resets, the image load, frames and
evaluation, requests, the operations that take time, queue, timers and grants, the laws of the part, layouts, and the
invariants. Each is a proposition over the model; none is proved here.
-/

open Sys2Proof Sys2Proof.Machine

/-! ## The step and the resets -/

/-- A step takes the command at the front of the queue and runs it on the state with the queue's rest. -/
def Obligations.StepRunsTheFrontCommand : Prop :=
  ∀ (s : State) (c : Instr) (rest : List Instr),
    step { s with pending := c :: rest } = exec c { s with pending := rest }

/-- With no command waiting, what is due is put into the queue; with nothing due, one millisecond passes on every timer and nothing
else changes. Due are, in this order: a grant, exactly when the T-port's transmitter is free and a frame waits for it; a start,
exactly when the F-port's is free and the Down FIFO holds a frame; and the expiries of the timers that have run out, silence
timers in slot order, ack wait, hail, refill timers in class order. While RESET is held nothing is due. That the block's own
events come to run so, and in this order, is the model's choice (log 1). -/
def Obligations.StepWithNoCommand : Prop :=
  ∀ s : State, s.pending = [] →
    (s.due ≠ [] → step s = .next { s with pending := s.due }) ∧
    (s.due = [] →
      step s = .next
        { s with
          tables :=
            { s.tables with
              bankA := { s.tables.bankA with slots := s.tables.bankA.slots.map fun x => { x with timer := x.timer.tick } }
              bankB := { s.tables.bankB with slots := s.tables.bankB.slots.map fun x => { x with timer := x.timer.tick } } }
          emitter :=
            { s.emitter with
              ackTimer := s.emitter.ackTimer.tick
              hailTimer := s.emitter.hailTimer.tick
              refill := .ofFn fun c => (s.emitter.refill.get c).tick } }) ∧
    Timer.stopped.tick = .stopped ∧ (∀ n d : Nat, (Timer.running n d).tick = .running (n - 1) d) ∧
    (s.start.resetHeld = true → s.due = []) ∧
    (s.start.resetHeld = false →
      let out (x : Timer) : Bool := match x with | .running 0 _ => true | _ => false
      s.due =
        (if s.ports.tSending = none ∧
            (s.ports.responses ≠ [] ∨ s.reportOffer.isSome = true ∨ s.ports.up ≠ [] ∨
              (s.emitter.link = .deaf ∧ s.emitter.hailPending = true ∧ s.mgmt.owner ≠ none ∧ s.emitter.outstanding ≠ [])) then
          [.transmitGrant]
        else []) ++
        (if s.ports.fSending = none ∧ s.ports.down ≠ [] then [.fPortTransmitStart] else []) ++
        ((s.tables.active.slots.filter fun x => decide (s.start.part = .running ∧ x.state ≠ .silent) && out x.timer).map
          fun x => .silenceExpiry x.station) ++
        (if s.emitter.outstanding ≠ [] ∧ out s.emitter.ackTimer = true then [.ackWaitExpiry] else []) ++
        (if s.emitter.link = .deaf ∧ out s.emitter.hailTimer = true then [.hailExpiry] else []) ++
        (([0, 1, 2, 3, 4, 5, 6, 7] : List ReportClass).filter fun c =>
            decide ((s.start.part = .held ∨ s.start.part = .running) ∧ (s.emitter.classes.get c).period ≠ 0) &&
              out (s.emitter.refill.get c)).map Instr.refillExpiry)

/-- The assertion of RESET abandons what is in progress, cuts off both transmissions, ends DEAF and deasserts ALERT (R174, R97, R132, R148,
R180); what else a pin reset clears is cleared at its end, the model's reading (log 8). Until RESET is released every command but the
two of a pin reset changes nothing: R174 says so of frames and requests, and the model chooses it for expiries, grants and the ends
of operations and transmissions (log 2). -/
def Obligations.PinResetHolds : Prop :=
  (∀ s : State,
    exec .pinReset s = .next
      { s with
        tables := { s.tables with activity := .idle }
        emitter :=
          { s.emitter with ackTimer := .stopped, link := .normal, hailTimer := .stopped, hailPending := false }
        ports := { s.ports with tSending := none, fSending := none }
        mgmt := { s.mgmt with inProgress := none }
        start := { s.start with resetHeld := true, startAlert := false, alert := false, loader := .atRest } }) ∧
  ∀ (c : Instr) (s : State), s.start.resetHeld = true → c ≠ .pinReset → (∀ pins, c ≠ .endOfPinReset pins) →
    exec c s = .next s

/-- The part enters SCRUB at the end of a pin reset, in any state, and at a COLD restart of the owner: every block at its value after
reset and the pins sampled, 0 and 127 giving node 126. A COLD restart answers nothing and keeps the frames in transmission (R171, R172,
R174, R150; the F-port's frame too, log 12; the start status and the restart notice stand until the end of the start, log 6). -/
def Obligations.ScrubIsEntered : Prop :=
  (∀ (s : State) (pins : Pins),
      exec (.endOfPinReset pins) s = .next
        { State.reset with
          start :=
            { StartController.atReset with
              ownNode := if pins.node = 0 ∨ pins.node = 127 then 126 else pins.node
              strap := pins.strap
              addressDefaulted := decide (pins.node = 0 ∨ pins.node = 127)
              status := s.start.status
              restartDue := s.start.restartDue }
          freeCount := s.freeCount
          pending := s.pending }) ∧
  (∀ (s : State) (src : Node) (tag : Byte) (pins : Pins),
      s.takes src [2] → s.mgmt.owner = some src → s.mgmt.cached tag = none →
      exec (.coldRestart src tag pins) s = .next
        { State.reset with
          ports := { Ports.atReset with tSending := s.ports.tSending, fSending := s.ports.fSending }
          start :=
            { StartController.atReset with
              ownNode := if pins.node = 0 ∨ pins.node = 127 then 126 else pins.node
              strap := pins.strap
              addressDefaulted := decide (pins.node = 0 ∨ pins.node = 127)
              status := s.start.status
              restartDue := s.start.restartDue }
          freeCount := s.freeCount
          pending := s.pending })

/-- The end of the scrub: HELD with the start status and the restart notice due for START = TRUNK, LOADING with the header to be
read for START = IMAGE (R171, R173, R179). -/
def Obligations.EndOfScrubStarts : Prop :=
  ∀ s : State, s.start.resetHeld = false → s.start.part = .scrub →
    exec .endOfScrub s = .next
      { s with
        start :=
          match s.start.strap with
          | .trunk =>
            { s.start with
              part := .held, restartDue := true
              status := if s.start.addressDefaulted = true then .addressDefaulted else .ok }
          | .image => { s.start with part := .loading, loader := { Loader.atRest with phase := .header } } }

/-- A WARM restart of the owner, whatever the link and the table activity: DONE is made and cached, and every block takes its part
in the one event (R183). -/
def Obligations.WarmRestartKeepsConfiguration : Prop :=
  ∀ (s : State) (src : Node) (tag : Byte),
    s.takes src [1] → s.mgmt.owner = some src → s.mgmt.cached tag = none →
    exec (.warmRestart src tag) s = .next
      { s with
        tables := { s.tables with bankA := s.tables.bankA.clearRuns.unhear, bankB := s.tables.bankB.clearRuns.unhear, activity := .idle }
        queue := .atReset
        emitter :=
          { s.emitter with
            outstanding := [], ackTimer := .stopped, link := .normal, hailTimer := .stopped, hailPending := false
            credits := .ofFn fun c => (s.emitter.classes.get c).creditLimit
            refill := .ofFn fun c =>
              if (s.emitter.classes.get c).period = 0 then .stopped
              else .running (s.emitter.classes.get c).period (s.emitter.classes.get c).period }
        sweep :=
          { s.sweep with
            state := .idle, lastEnd := .restarted, arm := none, triggerRefused := false, cycle := none }
        ports :=
          { s.ports with
            up := [], down := [], mark := .upNext
            responses := s.ports.responses ++ [⟨src, tag, 23, .done, .none, false⟩] }
        mgmt := { s.mgmt with cache := some ⟨tag, .held ⟨src, tag, 23, .done, .none, false⟩⟩, inProgress := none }
        start :=
          { s.start with
            part := .held, status := .warmRestart, restartDue := true, startAlert := false, alert := false } }

/-- HOLD in RUNNING makes the part HELD and stops every silence timer of the ACTIVE bank, states kept (R181, R52). RELEASE in HELD
clears the run state of every entry of both banks, begins supervision of the ACTIVE bank afresh, clears the start alert, makes the part
RUNNING and raises a due RESTARTED report (R182). In the other state each is WRONG-STATE. -/
def Obligations.HoldAndRelease : Prop :=
  (∀ (s : State) (src : Node) (tag : Byte) (params : List Byte), s.ready src tag params →
      exec (.hold src tag params) s = .next
        (if params ≠ [] then s.answered src tag 21 .badRequest .none
        else if s.start.part = .running then
          State.answered
            { s with
              tables :=
                s.tables.setActive
                  { s.tables.active with slots := s.tables.active.slots.map fun x => { x with timer := .stopped } }
              start := { s.start with part := .held } }
            src tag 21 .done .none
        else s.answered src tag 21 .wrongState .none)) ∧
  (∀ (s : State) (src : Node) (tag : Byte) (params : List Byte), s.ready src tag params →
      exec (.release src tag params) s = .next
        (if params ≠ [] then s.answered src tag 22 .badRequest .none
        else if s.start.part = .held then
          State.answered
            { s with
              tables :=
                ({ s.tables with bankA := s.tables.bankA.clearRuns, bankB := s.tables.bankB.clearRuns } : TableStore).setActive
                  { entries := s.tables.active.clearRuns.entries
                    slots := s.tables.active.slots.map fun x => { x with state := .unheard, timer := .running x.limit x.limit } }
              queue :=
                if s.start.restartDue = true then
                  s.queue.add s.emitter.classes
                    ⟨{ headReport .restarted s.start.settings.headClass s.sweep.cycle with
                        restart := some ⟨s.start.status, s.tables.generation⟩ }, false⟩
                else s.queue
              start := { s.start with part := .running, startAlert := false, alert := false, restartDue := false } }
            src tag 22 .done .none
        else s.answered src tag 22 .wrongState .none))

/-! ## The image load -/

/-- The header of an image: RECORD and RANGE as R175 gives them, or its fields kept and the records read next. NO-MEMORY is the memory
giving no answer (R175); that an answer of one to four bytes counts as none, whatever its version byte, is the model's deduction
(log 10). -/
def Obligations.ImageHeaderIsJudged : Prop :=
  ∀ (s : State) (answer : List Byte),
    s.start.resetHeld = false → s.start.part = .loading → s.start.loader.phase = .header →
    exec (.imageHeaderRead answer) s = .next
      (match answer with
      | version :: high :: low :: preset :: flags :: _ =>
        if version ≠ 1 then s.loadFailed .record
        else if high.toNat * 256 + low.toNat < 1 ∨ 1100 < high.toNat * 256 + low.toNat ∨ 126 < preset.toNat then
          s.loadFailed .range
        else
          { s with
            start :=
              { s.start with
                loader :=
                  { s.start.loader with
                    phase := .records (high.toNat * 256 + low.toNat)
                    crc := crcFrom s.start.loader.crc [version, high, low, preset, flags]
                    preset := if preset = 0 then none else some (preset.setWidth 7)
                    run := flags.getLsbD 0 } } }
      | _ => s.loadFailed .noMemory)

/-- One record of an image, answered whole: applied as the staging or setting request of its content, or failing the load with
RECORD, RANGE or FULL; no answer at all is NO-MEMORY (R175, R176, R188). -/
def Obligations.ImageRecordIsApplied : Prop :=
  ∀ (s : State) (left : Nat), s.start.resetHeld = false → s.start.part = .loading → s.start.loader.phase = .records left →
    exec (.imageRecordRead []) s = .next (s.loadFailed .noMemory) ∧
    ∀ (kind len : Byte) (content : List Byte), content.length = len.toNat →
      exec (.imageRecordRead (kind :: len :: content)) s = .next
        (let read (t : State) : State :=
          { t with
            start :=
              { t.start with
                loader :=
                  { t.start.loader with
                    phase := if left ≤ 1 then .crc else .records (left - 1)
                    crc := crcFrom s.start.loader.crc (kind :: len :: content) } } }
        if kind = 1 ∧ len = 12 then
          match readEntryConfig content with
          | none => s.loadFailed .range
          | some c =>
            if s.tables.hasRoom c.key = true then read { s with tables := s.tables.stageEntry c } else s.loadFailed .full
        else if kind = 2 ∧ len = 4 then
          match readModuleListing content with
          | none => s.loadFailed .range
          | some (m, limit, cls) => read { s with tables := s.tables.stageModule m limit cls }
        else if kind = 3 ∧ len = 5 then
          match readClassSetting content with
          | none => s.loadFailed .range
          | some (c, x) =>
            read { s with start := { s.start with loader := { s.start.loader with classes := s.start.loader.classes.set c x } } }
        else if kind = 4 ∧ len.toNat = partLength (content.getD 0 0) then
          match readPartParams content with
          | none => s.loadFailed .range
          | some f =>
            read
              { s with start := { s.start with loader := { s.start.loader with settings := f.apply s.start.loader.settings } } }
        else s.loadFailed .record)

/-- The end of an image: NO-MEMORY, CHECK and MODULE, or the six steps of a load that succeeds, the ACTIVE bank being empty as it is
in LOADING (R177, R178). -/
def Obligations.ImageEndDecidesTheLoad : Prop :=
  ∀ (s : State) (answer : List Byte),
    s.start.resetHeld = false → s.start.part = .loading → s.start.loader.phase = .crc → s.supervised →
    exec (.imageCrcRead answer) s = .next
      (match answer with
      | high :: low :: _ =>
        if (high ++ low : Word) ≠ s.start.loader.crc then s.loadFailed .check
        else if (s.tables.staging.entries.any fun e => !s.tables.staging.lists e.config.key.station) = true then
          s.loadFailed .unlistedModule
        else
          { s with
            tables :=
              { s.tables.setStaging
                  { entries := s.tables.staging.entries.map fun e => { e with run := .emptied }
                    slots := s.tables.staging.slots.map fun x =>
                      { x with
                        state := .unheard
                        timer := if s.start.loader.run = true then .running x.limit x.limit else .stopped } } with
                mark := s.tables.mark.other, generation := s.tables.generation + 1 }
            emitter :=
              { s.emitter with
                classes := s.start.loader.classes
                credits := .ofFn fun c => (s.start.loader.classes.get c).creditLimit
                refill := .ofFn fun c => refillTimer (s.start.loader.classes.get c).period }
            mgmt := { s.mgmt with owner := s.start.loader.preset }
            queue :=
              if s.start.loader.run = true then
                s.queue.add s.start.loader.classes
                  ⟨{ headReport .restarted s.start.loader.settings.headClass s.sweep.cycle with
                      restart := some ⟨.imageLoaded, s.tables.generation + 1⟩ }, false⟩
              else s.queue
            start :=
              { s.start with
                part := if s.start.loader.run = true then .running else .held
                status := .imageLoaded
                restartDue := !s.start.loader.run
                settings := s.start.loader.settings
                loader := .atRest } }
      | _ => s.loadFailed .noMemory)

/-! ## Frames and evaluation -/

/-- A frame on the F-port: discarded and tallied if it fails the receive checks, and otherwise routed by the first line of R136 that
it meets (R134 to R136, R142, R143); `takePoint` is the treatment of a POINT frame for the head. -/
def Obligations.FPortRouting : Prop :=
  ∀ (s : State) (bytes : List Byte), s.start.resetHeld = false →
    exec (.fPortFrameReceived bytes) s = .next
      (match receive true bytes with
      | none => { s with ports := { s.ports with fErrors := min 65535 (s.ports.fErrors + 1) } }
      | some f =>
        let refused : State := { s with ports := { s.ports with fRefused := min 65535 (s.ports.fRefused + 1) } }
        if f.dest = s.start.ownNode then refused
        else if f.dest = 0 then
          match f.body with
          | .point origin items => s.takePoint origin items
          | .scanMark _ | .mgmtReq _ | .unread => refused
        else if 64 ≤ f.dest.toNat ∧ f.dest ≠ 127 then
          if s.ports.up.length < 8 then { s with ports := { s.ports with up := s.ports.up ++ [.passed bytes] } }
          else if s.start.part = .held ∨ s.start.part = .running then
            { s with
              queue :=
                s.queue.add s.emitter.classes ⟨headReport .uplinkFull s.start.settings.headClass s.sweep.cycle, false⟩ }
          else s
        else s)

/-- A POINT frame for the head that is not evaluated. Outside RUNNING every item goes up and nothing else is touched, save the
UPLINK-FULL of a full Up FIFO in HELD (R24, R143); in RUNNING a frame of an unlisted module goes up whole, or not at all by the
unlisted-module policy with table activity IDLE (R24, R25). -/
def Obligations.UnevaluatedFramesPassWhole : Prop :=
  ∀ (s : State) (bytes : List Byte) (src : Node) (origin : Station) (items : List Item),
    s.start.resetHeld = false → receive true bytes = some ⟨0, src, .point origin items⟩ → s.start.ownNode ≠ 0 →
    s.start.part ≠ .running ∨ s.tables.active.lists origin = false →
    exec (.fPortFrameReceived bytes) s = .next
      (if s.start.part = .running ∧ s.tables.activity = .idle ∧ s.start.settings.modulePolicy = .drop then s
      else if s.ports.up.length < 8 then
        { s with ports := { s.ports with up := s.ports.up ++ [.rebuilt (s.mgmt.owner.getD 127) origin items] } }
      else if s.start.part = .held ∨ s.start.part = .running then
        { s with
          queue := s.queue.add s.emitter.classes ⟨headReport .uplinkFull s.start.settings.headClass s.sweep.cycle, false⟩ }
      else s)

/-- A frame of a listed module taken in RUNNING during a commit or copy: forwarded whole and unevaluated, or discarded with an
UPLINK-FULL when the Up FIFO is full; and the module is heard, LIVE with its timer restarted, a SILENT one raising RESUMED (R24, R47,
R48, R143). Where both reports are raised their order is a free value (log 13). -/
def Obligations.ModuleHeardDuringOperation : Prop :=
  ∀ (s : State) (bytes : List Byte) (src : Node) (origin : Station) (items : List Item) (x : Slot),
    s.start.resetHeld = false → receive true bytes = some ⟨0, src, .point origin items⟩ → s.start.ownNode ≠ 0 →
    s.start.part = .running → s.tables.activity ≠ .idle → s.tables.active.slot? origin = some x →
    let resumed : Claim := ⟨newReport .resumed x.cls (.station origin) s.sweep.cycle, false⟩
    let full : Claim := ⟨headReport .uplinkFull s.start.settings.headClass s.sweep.cycle, false⟩
    let taken (claims : List Claim) : State :=
      { s with
        tables := s.tables.setActive (s.tables.active.setSlot origin .live (.running x.limit x.limit))
        ports :=
          { s.ports with
            up :=
              if s.ports.up.length < 8 then s.ports.up ++ [.rebuilt (s.mgmt.owner.getD 127) origin items] else s.ports.up }
        queue := claims.foldl (fun q c => q.add s.emitter.classes c) s.queue }
    (s.ports.up.length < 8 →
      exec (.fPortFrameReceived bytes) s = .next (taken (if x.state = .silent then [resumed] else []))) ∧
    (8 ≤ s.ports.up.length → x.state ≠ .silent → exec (.fPortFrameReceived bytes) s = .next (taken [full])) ∧
    (8 ≤ s.ports.up.length → x.state = .silent →
      ∃ (claims : List Claim) (n : Nat), (claims = [resumed, full] ∨ claims = [full, resumed]) ∧
        exec (.fPortFrameReceived bytes) s = .next { taken claims with freeCount := n })

/-- A frame of a listed module taken in RUNNING with table activity IDLE: its items are evaluated in order, its reports reach the
queue in item order, the kept items, if any, go up as one frame, and the module is LIVE with its timer restarted. With a full Up
FIFO the kept items are discarded and an UPLINK-FULL follows the items' reports, the evaluation standing. A SILENT module raises a
RESUMED besides, whose place among the others is a free value (log 13) (R22, R26, R38, R41, R48, R141, R143). -/
def Obligations.EvaluatedFrame : Prop :=
  ∀ (s : State) (bytes : List Byte) (src : Node) (origin : Station) (items : List Item) (x : Slot),
    s.start.resetHeld = false → receive true bytes = some ⟨0, src, .point origin items⟩ → s.start.ownNode ≠ 0 →
    s.start.part = .running → s.tables.activity = .idle → s.tables.active.slot? origin = some x →
    let e := evaluateItems origin s.start.settings.pointPolicy s.sweep.cycle s.tables.active items
    let resumed : Claim := ⟨newReport .resumed x.cls (.station origin) s.sweep.cycle, false⟩
    let full : Claim := ⟨headReport .uplinkFull s.start.settings.headClass s.sweep.cycle, false⟩
    let raised : List Claim := e.claims ++ (if e.kept ≠ [] ∧ 8 ≤ s.ports.up.length then [full] else [])
    let taken (claims : List Claim) : State :=
      { s with
        tables := s.tables.setActive (e.bank.setSlot origin .live (.running x.limit x.limit))
        ports :=
          { s.ports with
            up :=
              if e.kept ≠ [] ∧ s.ports.up.length < 8 then
                s.ports.up ++ [.rebuilt (s.mgmt.owner.getD 127) origin e.kept]
              else s.ports.up }
        queue := claims.foldl (fun q c => q.add s.emitter.classes c) s.queue }
    (x.state ≠ .silent → exec (.fPortFrameReceived bytes) s = .next (taken raised)) ∧
    (x.state = .silent →
      ∃ place n : Nat, place ≤ raised.length ∧
        exec (.fPortFrameReceived bytes) s =
          .next { taken (raised.take place ++ [resumed] ++ raised.drop place) with freeCount := n })

/-- The items of a frame are dealt with one after another, each seeing the run state the one before it left: an item without an entry
follows the unlisted-point policy, one with an entry is evaluated against it and kept by its forward policy (R22, R26, R27, R40). -/
def Obligations.ItemsInFrameOrder : Prop :=
  ∀ (origin : Station) (policy : UnlistedPolicy) (cycle : Option Word) (b : Bank),
    evaluateItems origin policy cycle b [] = ⟨b, [], []⟩ ∧
    ∀ (i : Item) (rest : List Item),
      evaluateItems origin policy cycle b (i :: rest) =
        match b.entry? ⟨origin, i.point⟩ with
        | none =>
          let y := evaluateItems origin policy cycle b rest
          ⟨y.bank, y.claims, (if policy = .forward then [i] else []) ++ y.kept⟩
        | some e =>
          let y := evaluateItems origin policy cycle (b.setRun ⟨origin, i.point⟩ (evaluateItem e i).1) rest
          ⟨y.bank,
            (((evaluateItem e i).2.bind
                (transitionClaim { e with run := (evaluateItem e i).1 } i.value cycle)).toList) ++ y.claims,
            (if e.config.policy = .always ∨ (e.config.policy = .onChange ∧ (evaluateItem e i).2 ≠ none) then [i] else []) ++
              y.kept⟩

/-- A GOOD item against an entry: out of FAULTED through UNKNOWN with no run, the last value always and the prior value under AGREE
alone, the run cleared, begun or advanced, and the transition at the confirm count (R31 to R34). -/
def Obligations.GoodItemAdvancesTheRun : Prop :=
  ∀ (e : Entry) (p : Fin 32) (v : Word),
    let raw := e.config.test.raw v
    let verdict := if e.run.verdict = .faulted then .unknown else e.run.verdict
    let candidate := if e.run.verdict = .faulted then none else e.run.candidate
    let run := if e.run.verdict = .faulted then 0 else e.run.runLength
    let reached := if candidate = some raw then run + 1 else 1
    let prior := if verdict = .agree ∧ raw = .agree then some v else e.run.prior
    evaluateItem e ⟨p, v, .good⟩ =
      if raw.toVerdict = verdict then (⟨verdict, none, 0, some v, prior⟩, none)
      else if reached < e.config.confirm then (⟨verdict, some raw, reached, some v, prior⟩, none)
      else (⟨raw.toVerdict, none, 0, some v, prior⟩, some ⟨verdict, raw.toVerdict⟩)

/-- A FAULT item against an entry, R30: the run cleared, both values kept, FAULTED at once with one QUALITY report, and nothing more
for an entry already FAULTED; entry into FAULTED is the transition that ON-CHANGE keeps, whatever the confirm count. -/
def Obligations.FaultItemIsOneQuality : Prop :=
  ∀ (e : Entry) (p : Fin 32) (v : Word) (cycle : Option Word),
    (evaluateItem e ⟨p, v, .fault⟩).1 = ⟨.faulted, none, 0, e.run.last, e.run.prior⟩ ∧
    (e.run.verdict = .faulted → (evaluateItem e ⟨p, v, .fault⟩).2 = none) ∧
    (e.run.verdict ≠ .faulted →
      (evaluateItem e ⟨p, v, .fault⟩).2 = some ⟨e.run.verdict, .faulted⟩ ∧
      transitionClaim { e with run := (evaluateItem e ⟨p, v, .fault⟩).1 } v cycle ⟨e.run.verdict, .faulted⟩ =
        some ⟨qualityReport e cycle, e.config.urgent⟩) ∧
    (ForwardPolicy.onChange.keeps (evaluateItem e ⟨p, v, .fault⟩).2 = true ↔ e.run.verdict ≠ .faulted)

/-- The reports of the transitions that evaluation takes, with every field, and the placement they are handed over for (R10, R36,
R37, R39). -/
def Obligations.TransitionReports : Prop :=
  ∀ (e : Entry) (v : Word) (cycle : Option Word) (r : Report),
    r = { kind := .change, cls := e.config.cls, key := .point e.config.key, verdict := some .disagree, value := some v
          prior := if e.config.carryPrior = true then e.run.prior else none
          cycle := cycle, repeatCount := 1, lostBefore := 0, urgent := false, restart := none, sweep := none } →
    transitionClaim e v cycle ⟨.unknown, .disagree⟩ =
      (if e.config.reportInitial = true then some ⟨r, e.config.urgent⟩ else none) ∧
    transitionClaim e v cycle ⟨.agree, .disagree⟩ = some ⟨r, e.config.urgent⟩ ∧
    transitionClaim e v cycle ⟨.unknown, .agree⟩ = none ∧
    transitionClaim e v cycle ⟨.disagree, .agree⟩ =
      (if e.config.reportReturn = true then
        some ⟨{ r with kind := .returned, verdict := some .agree, prior := none }, false⟩
      else none) ∧
    ∀ before : Verdict,
      transitionClaim e v cycle ⟨before, .faulted⟩ =
        some ⟨{ r with kind := .quality, verdict := some .faulted, value := none, prior := none }, e.config.urgent⟩

/-- The PATTERN test, R6: bit by bit where the mask selects, with the two masks the rule names, and the raw verdict it gives a GOOD
item. -/
def Obligations.PatternTest : Prop :=
  ∀ (mask compare v : Word),
    ((Test.pattern mask compare).agrees v = true ↔
      ∀ i : Fin 16, mask.getLsbD i = true → v.getLsbD i = compare.getLsbD i) ∧
    (Test.pattern 0 compare).agrees v = true ∧
    ((Test.pattern 65535 compare).agrees v = true ↔ v = compare) ∧
    ((Test.pattern mask compare).raw v = .agree ↔ (Test.pattern mask compare).agrees v = true) ∧
    ((Test.pattern mask compare).raw v = .disagree ↔ (Test.pattern mask compare).agrees v = false) ∧
    ∀ (e : Entry) (p : Fin 32), e.config.test = .pattern mask compare →
      evaluateItem e ⟨p, v, .good⟩ =
        (e.run.leaveFault.recorded ((Test.pattern mask compare).raw v) v).debounce e.config.confirm
          ((Test.pattern mask compare).raw v)

/-- The BAND test, R7: which values each sense agrees with, both bounds in the band; the band of one value and the band of all; the raw
verdict it gives a GOOD item; and a low above the high refused, BAD-REQUEST for STAGE-ENTRY and RANGE for an image record. -/
def Obligations.BandTest : Prop :=
  (∀ low high v : Word,
    ((Test.band low high .inside).agrees v = true ↔ low.toNat ≤ v.toNat ∧ v.toNat ≤ high.toNat) ∧
    ((Test.band low high .outside).agrees v = true ↔ v.toNat < low.toNat ∨ high.toNat < v.toNat) ∧
    ((Test.band low low .inside).agrees v = true ↔ v = low) ∧
    ((Test.band low low .outside).agrees v = true ↔ v ≠ low) ∧
    (Test.band 0 65535 .inside).agrees v = true ∧ (Test.band 0 65535 .outside).agrees v = false ∧
    ∀ sense : Sense,
      ((Test.band low high sense).raw v = .agree ↔ (Test.band low high sense).agrees v = true) ∧
      ((Test.band low high sense).raw v = .disagree ↔ (Test.band low high sense).agrees v = false) ∧
      ∀ (e : Entry) (p : Fin 32), e.config.test = .band low high sense →
        evaluateItem e ⟨p, v, .good⟩ =
          (e.run.leaveFault.recorded ((Test.band low high sense).raw v) v).debounce e.config.confirm
            ((Test.band low high sense).raw v)) ∧
  ∀ (m p lowHigh lowLow highHigh highLow sense confirm cls policy flags : Byte),
    (highHigh ++ highLow : Word).toNat < (lowHigh ++ lowLow : Word).toNat →
    let entry : List Byte := [m, p, 2, lowHigh, lowLow, highHigh, highLow, sense, confirm, cls, policy, flags]
    (∀ (s : State) (src : Node) (tag : Byte), s.ready src tag entry →
      exec (.stageEntry src tag entry) s = .next (s.answered src tag 6 .badRequest .none)) ∧
    ∀ (s : State) (left : Nat), s.start.resetHeld = false → s.start.part = .loading →
      s.start.loader.phase = .records left → exec (.imageRecordRead (1 :: 12 :: entry)) s = .next (s.loadFailed .range)

/-- Receiving a frame on the F-port changes no configuration field of any entry or slot, nothing of the STAGING bank, no bank role, no
generation and no activity, and nothing of the Emitter, the Sweep Generator, the Management Unit and the Start Controller; of the
ports only the Up FIFO and the F-port's tallies (R44). -/
def Obligations.FieldFramesChangeNoConfiguration : Prop :=
  ∀ (s t : State) (bytes : List Byte), exec (.fPortFrameReceived bytes) s = .next t →
    t.tables.staging = s.tables.staging ∧
    t.tables.active.entries.map Entry.config = s.tables.active.entries.map Entry.config ∧
    t.tables.active.slots.map (fun x => (x.station, x.limit, x.cls)) =
      s.tables.active.slots.map (fun x => (x.station, x.limit, x.cls)) ∧
    t.tables.mark = s.tables.mark ∧ t.tables.generation = s.tables.generation ∧ t.tables.activity = s.tables.activity ∧
    t.emitter = s.emitter ∧ t.sweep = s.sweep ∧ t.mgmt = s.mgmt ∧ t.start = s.start ∧ t.pending = s.pending ∧
    ∃ up fErrors fRefused, t.ports = { s.ports with up := up, fErrors := fErrors, fRefused := fRefused }

/-- A frame on the T-port that is neither a MGMT-REQ for the own node nor a broadcast SCAN-MARK: the first line of R138 that it meets
(R134, R135, R138, R144). -/
def Obligations.TPortRouting : Prop :=
  ∀ (s : State) (bytes : List Byte) (pins : Pins), s.start.resetHeld = false →
    (∀ src payload, receive false bytes ≠ some ⟨s.start.ownNode, src, .mgmtReq payload⟩) →
    (∀ src cycle, receive false bytes ≠ some ⟨127, src, .scanMark cycle⟩) →
    exec (.tPortFrameReceived bytes pins) s = .next
      (match receive false bytes with
      | none => { s with ports := { s.ports with tErrors := min 65535 (s.ports.tErrors + 1) } }
      | some f =>
        let refused : State := { s with ports := { s.ports with tRefused := min 65535 (s.ports.tRefused + 1) } }
        if f.dest = s.start.ownNode then refused
        else
          match f.body with
          | .scanMark _ => refused
          | .point _ _ | .mgmtReq _ | .unread =>
            if f.dest = 0 then refused
            else if f.dest.toNat ≤ 63 ∨ f.dest = 127 then
              if s.ports.down.length < 8 then { s with ports := { s.ports with down := s.ports.down ++ [bytes] } }
              else if s.start.part = .held ∨ s.start.part = .running then
                { s with
                  queue :=
                    s.queue.add s.emitter.classes
                      ⟨headReport .downlinkFull s.start.settings.headClass s.sweep.cycle, false⟩ }
              else s
            else s)

/-- A broadcast SCAN-MARK: its cycle number becomes the current cycle, except in SCRUB; an armed mark of that cycle is disarmed and
starts a sweep or sets TRIGGER-REFUSED; its copy joins the Down FIFO, or is discarded if that is full, without bearing on the
Sweep Generator, raising a DOWNLINK-FULL in HELD and RUNNING (R114, R116, R140, R144; whether that report carries the cycle number of
before or after the mark is a free value, log 13). -/
def Obligations.ScanMarkTaken : Prop :=
  ∀ (s : State) (bytes : List Byte) (pins : Pins) (src : Node) (n : Word),
    s.start.resetHeld = false → receive false bytes = some ⟨127, src, .scanMark n⟩ → s.start.ownNode ≠ 127 →
    let sweep : SweepGenerator :=
      if s.start.part = .scrub then s.sweep
      else
        match s.sweep.arm with
        | some a =>
          if a.cycle = n then
            if s.start.part = .running ∧ s.sweep.state = .idle ∧ s.mgmt.owner ≠ none then
              { s.sweep with
                cycle := some n, arm := none
                state := .active, scope := some a.scope, cursor := none, number := s.sweep.number + 1, count := 0 }
            else { s.sweep with cycle := some n, arm := none, triggerRefused := true }
          else { s.sweep with cycle := some n }
        | none => { s.sweep with cycle := some n }
    (s.ports.down.length < 8 →
      exec (.tPortFrameReceived bytes pins) s = .next
        { s with sweep := sweep, ports := { s.ports with down := s.ports.down ++ [bytes] } }) ∧
    (8 ≤ s.ports.down.length →
      ∃ (q : ReportQueue) (n' : Nat),
        exec (.tPortFrameReceived bytes pins) s = .next { s with sweep := sweep, queue := q, freeCount := n' } ∧
        (s.start.part = .scrub ∨ s.start.part = .loading → q = s.queue) ∧
        (s.start.part = .held ∨ s.start.part = .running →
          ∃ cycle, (cycle = s.sweep.cycle ∨ cycle = some n) ∧
            q = s.queue.add s.emitter.classes ⟨headReport .downlinkFull s.start.settings.headClass cycle, false⟩))

/-- A MGMT-REQ frame for the own node is the request command that its payload spells (R138, R151, R187; log 4). Two kinds of payload
spell no command of the table: a RESTART whose level is neither WARM nor COLD, which is BAD-REQUEST where a RESTART would be
carried out and is judged as one elsewhere (R169); and one of fewer than two bytes, read with 0 for each missing byte (R187). -/
def Obligations.RequestFrameIsItsCommand : Prop :=
  ∀ (s : State) (bytes : List Byte) (pins : Pins),
    (∀ (c : Instr) (q : Request), commandRequest c = some q → c.wellFormed = true →
      (∀ src tag p, c = .coldRestart src tag p → p = pins) →
      receive false bytes = some ⟨s.start.ownNode, q.src, .mgmtReq (q.tag :: q.name :: q.params)⟩ →
      exec (.tPortFrameReceived bytes pins) s = exec c s) ∧
    (∀ (src : Node) (tag : Byte) (params : List Byte), params ≠ [1] → params ≠ [2] →
      receive false bytes = some ⟨s.start.ownNode, src, .mgmtReq (tag :: 23 :: params)⟩ →
      (s.takes src params → s.mgmt.owner = some src → s.mgmt.cached tag = none →
        exec (.tPortFrameReceived bytes pins) s = .next
          (State.answered
            (if s.emitter.link = .deaf then
              { s with
                emitter :=
                  { s.emitter with
                    link := .normal, hailTimer := .stopped, hailPending := false
                    outstanding := s.emitter.outstanding.map fun o => { o with retry := 0, transmit := .flagged } }
                start := { s.start with alert := s.start.startAlert } }
            else s)
            src tag 23 .badRequest .none)) ∧
      (¬(s.takes src params ∧ s.mgmt.owner = some src ∧ s.mgmt.cached tag = none) →
        exec (.tPortFrameReceived bytes pins) s = exec (.warmRestart src tag) s)) ∧
    ∀ src : Node,
      (receive false bytes = some ⟨s.start.ownNode, src, .mgmtReq []⟩ →
        exec (.tPortFrameReceived bytes pins) s = exec (.unknownRequest src 0 0 []) s) ∧
      ∀ tag : Byte, receive false bytes = some ⟨s.start.ownNode, src, .mgmtReq [tag]⟩ →
        exec (.tPortFrameReceived bytes pins) s = exec (.unknownRequest src tag 0 []) s

/-! ## How a request is judged -/

/-- A request that meets four waiting responses is refused at the T-port; one taken in SCRUB or LOADING is NOT-READY, whatever its name,
source or tag (R139, R154); the owner's request under the cached tag is not carried out: the held response is made again, or nothing
is made while the operation is in progress (R162). -/
def Obligations.RequestsNotJudged : Prop :=
  (∀ (s : State) (c : Instr) (q : Request), commandRequest c = some q → c.wellFormed = true → s.start.resetHeld = false →
      (4 ≤ s.requestResponses →
        exec c s = .next { s with ports := { s.ports with tRefused := min 65535 (s.ports.tRefused + 1) } }) ∧
      (s.requestResponses < 4 → s.start.part = .scrub ∨ s.start.part = .loading →
        exec c s = .next (s.replied ⟨q.src, q.tag, q.name, .notReady, .none, false⟩))) ∧
  (∀ (s : State) (c : Instr) (q : Request) (content : CacheContent), commandRequest c = some q → s.takes q.src q.params →
      s.mgmt.owner = some q.src → s.emitter.link = .normal → s.mgmt.cache = some ⟨q.tag, content⟩ →
      exec c s = .next
        (match content with
        | .held r => s.replied { r with dest := q.src, final := false }
        | .inProgress => s))

/-- A request of the owner taken while DEAF first ends it: every outstanding record FLAGGED with retry count 0, the hail timer stopped,
a pending HAIL withdrawn, ALERT deasserted unless the start alert is set; it is then taken as at a NORMAL link (R96). -/
def Obligations.OwnerRequestEndsDeaf : Prop :=
  ∀ (s : State) (c : Instr) (q : Request), commandRequest c = some q → s.takes q.src q.params →
    s.mgmt.owner = some q.src → s.emitter.link = .deaf →
    exec c s =
      exec c
        { s with
          emitter :=
            { s.emitter with
              link := .normal, hailTimer := .stopped, hailPending := false
              outstanding := s.emitter.outstanding.map fun o => { o with retry := 0, transmit := .flagged } }
          start := { s.start with alert := s.start.startAlert } }

/-- Steps 3 to 5 of R153 in their order: UNKNOWN-REQUEST from any node, NOT-OWNER for an owner-only request of another node, BUSY for
the owner's request that is not one of the six taken during a commit or copy (R153, R154, R159, R163). -/
def Obligations.RequestsJudgedInOrder : Prop :=
  ∀ (s : State) (c : Instr) (q : Request), commandRequest c = some q → s.takes q.src q.params →
    (s.mgmt.owner ≠ some q.src →
      (commandName c = none → exec c s = .next (s.replied ⟨q.src, q.tag, q.name, .unknownRequest, .none, false⟩)) ∧
      (∀ n, commandName c = some n → n.isOpen = false →
        exec c s = .next (s.replied ⟨q.src, q.tag, q.name, .notOwner, .owner s.mgmt.owner, false⟩))) ∧
    (s.mgmt.owner = some q.src → s.emitter.link = .normal → s.mgmt.cached q.tag = none →
      (commandName c = none → exec c s = .next (s.answered q.src q.tag q.name .unknownRequest .none)) ∧
      (∀ n, commandName c = some n → s.tables.activity ≠ .idle →
        n ∉ [RequestName.queryStatus, .readEntry, .readModule, .ack, .claim, .restart] →
        exec c s = .next (s.answered q.src q.tag q.name .busy .none)))

/-- The law of R159: a request of a node that is not the owner, other than CLAIM, changes no configuration, queue, outstanding or
ownership state: at most its own response and the T-port's tallies (and the model's index of free values, log 11). -/
def Obligations.NonOwnerChangesNothing : Prop :=
  ∀ (s t : State) (c : Instr) (q : Request), commandRequest c = some q → s.mgmt.owner ≠ some q.src →
    (∀ src tag params, c ≠ .claim src tag params) → exec c s = .next t →
    ∃ responses tErrors tRefused freeCount,
      t =
        { s with
          ports := { s.ports with responses := responses, tErrors := tErrors, tRefused := tRefused }
          freeCount := freeCount }

/-! ## The requests of the catalogue -/

/-- CLAIM by the owner at the moment it is taken, FORCE and the part state: the table of R157. The claim that leaves the requester the
owner is the cache's entry (R163). A FORCE byte above 1, or a parameter string that is not one byte, is BAD-REQUEST (R153, R187). -/
def Obligations.ClaimByOwnerAndForce : Prop :=
  ∀ (s : State) (src : Node) (tag : Byte),
    (s.mgmt.owner = some src → s.emitter.link = .normal ∧ s.mgmt.cached tag = none) →
    let refused : State :=
      if s.mgmt.owner = some src then s.answered src tag 1 .badRequest .none
      else s.replied ⟨src, tag, 1, .badRequest, .none, false⟩
    (∀ force : Byte, s.takes src [force] →
      exec (.claim src tag [force]) s = .next
        (if 1 < force.toNat then refused
        else
          match s.mgmt.owner with
          | none => (s.changeOwner (some src)).answered src tag 1 .done (.owner (some src))
          | some o =>
            if o = src then s.answered src tag 1 .done (.owner (some src))
            else if force = 0 then s.replied ⟨src, tag, 1, .notOwner, .owner (some o), false⟩
            else if s.start.part = .held then (s.changeOwner (some src)).answered src tag 1 .done (.owner (some src))
            else s.replied ⟨src, tag, 1, .wrongState, .none, false⟩)) ∧
    ∀ params : List Byte, s.takes src params → params.length ≠ 1 → exec (.claim src tag params) s = .next refused

/-- What an owner change does in its one event, and that it does nothing else: the outstanding list handed back, the ack wait timer
stopped, DEAF ended, a sweep ended without a SWEEP-END, the cache emptied, the owner replaced (R98, R112, R156). The return: sweep
records dropped; each other one, the newest first, merged into the unsent record or the newer returned one it matches (R73); the
survivors placed ahead of the records already there, the oldest first, urgent ones while the urgent list has a free place (R74); and
the front of the worst class evicted, counted as lost, until the class lists hold 256 (R75). YIELD is the change that leaves no
owner; its DONE goes to the former owner and enters no cache (R158). -/
def Obligations.OwnerChangeEvent : Prop :=
  (∀ (s : State) (owner : Option Node),
      s.changeOwner owner =
        { s with
          queue := s.queue.takeBack s.emitter.classes s.emitter.outstanding
          emitter :=
            { s.emitter with
              ackTimer := .stopped, outstanding := [], link := .normal
              hailTimer := if s.emitter.link = .deaf then .stopped else s.emitter.hailTimer
              hailPending := if s.emitter.link = .deaf then false else s.emitter.hailPending }
          start := { s.start with alert := if s.emitter.link = .deaf then s.start.startAlert else s.start.alert }
          sweep :=
            if s.sweep.state = .idle then s.sweep else { s.sweep with state := .idle, lastEnd := .ownerChanged }
          mgmt := { s.mgmt with owner := owner, cache := none } }) ∧
  (∀ (q : ReportQueue) (classes : PerClass ClassSetting) (outstanding : List Outstanding),
      let twin (r x : Report) : Bool := decide (x.key = r.key ∧ x.kind = r.kind)
      let merge (r x : Report) : Report :=
        if twin r x = true then
          { x with
            repeatCount := min 255 (x.repeatCount + r.repeatCount)
            lostBefore := if r.lostBefore = 0 then x.lostBefore else r.lostBefore }
        else x
      let consider (r : Report) (a : ReportQueue × List Report) : ReportQueue × List Report :=
        if a.1.urgent.any (twin r) = true ∨ ∃ c : ReportClass, (a.1.lists.get c).any (twin r) = true then
          ({ a.1 with urgent := a.1.urgent.map (merge r), lists := .ofFn fun c => (a.1.lists.get c).map (merge r) }, a.2)
        else if a.2.any (twin r) = true then (a.1, a.2.map (merge r))
        else (a.1, r :: a.2)
      let returned := (outstanding.map Outstanding.report).filter fun r => decide (r.kind ≠ .sweep ∧ r.kind ≠ .sweepEnd)
      let merged := returned.foldr consider (q, [])
      let divided :=
        merged.2.foldl
          (fun (d : List Report × List Report) r =>
            if r.urgent = true ∧ d.1.length < 4 - merged.1.urgent.length then (d.1 ++ [r], d.2)
            else (d.1, d.2 ++ [{ r with urgent := false }]))
          ([], [])
      let placed : ReportQueue :=
        { merged.1 with
          urgent := divided.1 ++ merged.1.urgent
          lists := .ofFn fun c => divided.2.filter (fun r => decide (r.cls = c)) ++ merged.1.lists.get c }
      let evict (p : ReportQueue) : ReportQueue :=
        match ([0, 1, 2, 3, 4, 5, 6, 7] : List ReportClass).find? fun w =>
            decide (p.lists.get w ≠ [] ∧
              ∀ d : ReportClass, p.lists.get d ≠ [] → d ≠ w →
                (classes.get d).rank < (classes.get w).rank ∨ ((classes.get w).rank = (classes.get d).rank ∧ d < w)) with
        | some w =>
          { p with lists := p.lists.set w (p.lists.get w).tail, lost := p.lost.set w (min 255 (p.lost.get w + 1)) }
        | none => p
      q.takeBack classes outstanding = evict^[placed.pooled - 256] placed) ∧
  (∀ (s : State) (src : Node) (tag : Byte) (params : List Byte), s.ready src tag params →
      exec (.yieldOwnership src tag params) s = .next
        (if params = [] then (s.changeOwner none).replied ⟨src, tag, 2, .done, .none, false⟩
        else s.answered src tag 2 .badRequest .none))

/-- QUERY-STATUS from any node: DONE with the values of R165 as they all stand at the event; it changes nothing it reports. (The two
class bytes beside a scope of ALL or DISAGREE are free values, log 11.) With parameters it is BAD-REQUEST (R153, R187). -/
def Obligations.QueryStatusReports : Prop :=
  ∀ (s : State) (src : Node) (tag : Byte),
    (s.mgmt.owner = some src → s.emitter.link = .normal ∧ s.mgmt.cached tag = none) →
    (∀ params : List Byte, s.takes src params → params ≠ [] →
      exec (.queryStatus src tag params) s = .next
        (if s.mgmt.owner = some src then s.answered src tag 3 .badRequest .none
        else s.replied ⟨src, tag, 3, .badRequest, .none, false⟩)) ∧
    (s.takes src [] → ∃ (r : StatusReport) (n : Nat),
      exec (.queryStatus src tag []) s = .next
        (if s.mgmt.owner = some src then State.answered { s with freeCount := n } src tag 3 .done (.status r)
        else State.replied { s with freeCount := n } ⟨src, tag, 3, .done, .status r, false⟩) ∧
      r.part = s.start.part ∧ r.status = s.start.status ∧ r.ownNode = s.start.ownNode ∧ r.owner = s.mgmt.owner ∧
      r.link = s.emitter.link ∧ r.mark = s.tables.mark ∧ r.generation = s.tables.generation ∧
      r.activity = s.tables.activity ∧ r.activeCount = s.tables.active.entries.length ∧
      r.stagingCount = s.tables.staging.entries.length ∧
      (∀ c, r.queued.get c = (s.queue.lists.get c).length ∧ r.lost.get c = s.queue.lost.get c) ∧
      r.urgentCount = s.queue.urgent.length ∧ r.outstanding = s.emitter.outstanding.length ∧
      r.nextNumber = s.emitter.nextNumber ∧ r.sweepState = s.sweep.state ∧ r.scope = s.sweep.scope ∧
      r.cursor = s.sweep.cursor ∧ r.sweepNumber = s.sweep.number ∧ r.swept = s.sweep.count ∧
      r.lastEnd = s.sweep.lastEnd ∧ r.arm = s.sweep.arm ∧ r.triggerRefused = s.sweep.triggerRefused ∧
      r.cycle = s.sweep.cycle ∧ r.fErrors = s.ports.fErrors ∧ r.fRefused = s.ports.fRefused ∧
      r.tErrors = s.ports.tErrors ∧ r.tRefused = s.ports.tRefused)

/-- READ-ENTRY and READ-MODULE from any node read the bank that holds the role, and change nothing: the entry of a key, the first entry
beyond a key, NO-ENTRY; the slot, listed or not; BAD-REQUEST for a role, mode, key or station out of range (R166, R167). -/
def Obligations.ReadsOfTheTables : Prop :=
  ∀ (s : State) (src : Node) (tag : Byte) (params : List Byte), s.takes src params →
    (s.mgmt.owner = some src → s.emitter.link = .normal ∧ s.mgmt.cached tag = none) →
    let answer (name : Byte) (status : Status) (results : Results) : State :=
      if s.mgmt.owner = some src then s.answered src tag name status results
      else s.replied ⟨src, tag, name, status, results, false⟩
    (∀ role mode m p : Byte, params = [role, mode, m, p] →
      exec (.readEntry src tag params) s = .next
        (if (role = 1 ∨ role = 2) ∧
            (mode = 0 ∧ (readPointKey m p).isSome = true ∨
              mode = 1 ∧ ((m = 0 ∧ p = 255) ∨ (readPointKey m p).isSome = true)) then
          let bank := if role = 1 then s.tables.active else s.tables.staging
          let found :=
            bank.entries.find? fun e =>
              if mode = 0 then decide (some e.config.key = readPointKey m p)
              else decide (∀ k ∈ readPointKey m p, k.index < e.config.key.index)
          match found with
          | some e => answer 4 .done (.entry e)
          | none => answer 4 .noEntry .none
        else answer 4 .badRequest .none)) ∧
    (params.length ≠ 4 → exec (.readEntry src tag params) s = .next (answer 4 .badRequest .none)) ∧
    (params.length ≠ 2 → exec (.readModule src tag params) s = .next (answer 5 .badRequest .none)) ∧
    (∀ role st : Byte, params = [role, st] →
      exec (.readModule src tag params) s = .next
        (match readStation st with
        | some m =>
          if role = 1 then answer 5 .done (.slot m (s.tables.active.slot? m))
          else if role = 2 then answer 5 .done (.slot m (s.tables.staging.slot? m))
          else answer 5 .badRequest .none
        | none => answer 5 .badRequest .none))

/-- STAGE-ENTRY, UNSTAGE-ENTRY, STAGE-MODULE, UNSTAGE-MODULE and CLEAR-STAGING write the STAGING bank and nothing else, with their
refusals, outcomes and counts; an entry joins at its place in key order with its run state emptied (R4, R118 to R122). -/
def Obligations.StagingRequestsWriteStaging : Prop :=
  (∀ (s : State) (src : Node) (tag : Byte) (params : List Byte), s.ready src tag params →
      exec (.stageEntry src tag params) s = .next
        (match readEntryConfig params with
        | none => s.answered src tag 6 .badRequest .none
        | some c =>
          if (s.tables.staging.entry? c.key).isSome = false ∧ 512 ≤ s.tables.staging.entries.length then
            s.answered src tag 6 .tableFull (.stagingCount s.tables.staging.entries.length)
          else
            let entries := insertBy Entry.index ⟨c, .emptied⟩ s.tables.staging.entries
            State.answered { s with tables := s.tables.setStaging { s.tables.staging with entries := entries } } src tag 6 .done
              (.staged (if (s.tables.staging.entry? c.key).isSome = true then .replaced else .added) entries.length))) ∧
  (∀ (s : State) (src : Node) (tag : Byte) (params : List Byte), s.ready src tag params →
      let staging := s.tables.staging
      let wrote (b : Bank) : State := { s with tables := s.tables.setStaging b }
      exec (.unstageEntry src tag params) s = .next
        (match params with
        | [m, p] =>
          match readPointKey m p with
          | none => s.answered src tag 7 .badRequest .none
          | some k =>
            if (staging.entry? k).isSome = true then
              let entries := staging.entries.filter fun e => decide (e.config.key ≠ k)
              (wrote { staging with entries := entries }).answered src tag 7 .done (.stagingCount entries.length)
            else s.answered src tag 7 .noEntry .none
        | _ => s.answered src tag 7 .badRequest .none) ∧
      exec (.stageModule src tag params) s = .next
        (match readModuleListing params with
        | none => s.answered src tag 8 .badRequest .none
        | some (m, limit, cls) =>
          (wrote { staging with slots := insertBy Slot.index ⟨m, limit, cls, .unheard, .stopped⟩ staging.slots }).answered src tag 8
            .done (.listed (if staging.lists m = true then .restaged else .newlyListed))) ∧
      exec (.unstageModule src tag params) s = .next
        (match params with
        | [st] =>
          match readStation st with
          | none => s.answered src tag 9 .badRequest .none
          | some m =>
            (wrote { staging with slots := staging.slots.filter fun x => decide (x.station ≠ m) }).answered src tag 9 .done
              (.unlisted (if staging.lists m = true then .wasListed else .wasUnlisted))
        | _ => s.answered src tag 9 .badRequest .none) ∧
      exec (.clearStaging src tag params) s = .next
        (if params = [] then
          (wrote ⟨[], []⟩).answered src tag 10 .done (.cleared staging.entries.length staging.slots.length)
        else s.answered src tag 10 .badRequest .none))

/-- SET-CLASS replaces the four settings in one event, with a credit above the new limit set to it and the refill timer started,
stopped or left running; SET-PART carries the fields that the low seven bits of its presence byte name, each present one in range and
on its step replacing its setting and each absent one leaving it, answers all seven, and is BAD-REQUEST with any present field
outside or any other length; DISCARD-CLASS removes a class list and counts no loss (R71, R87, R88, R168, R187). -/
def Obligations.SettingRequests : Prop :=
  ∀ (s : State) (src : Node) (tag : Byte) (params : List Byte), s.ready src tag params →
    exec (.setClass src tag params) s = .next
      (match readClassSetting params with
      | none => s.answered src tag 13 .badRequest .none
      | some (c, x) =>
        State.answered
          { s with
            emitter :=
              { s.emitter with
                classes := s.emitter.classes.set c x
                credits := s.emitter.credits.set c (min x.creditLimit (s.emitter.credits.get c))
                refill :=
                  s.emitter.refill.set c
                    (if x.period = 0 then .stopped
                    else if (s.emitter.classes.get c).period = 0 then .running x.period x.period
                    else s.emitter.refill.get c) } }
          src tag 13 .done .none) ∧
    (params.length ≠
        1 + (if (params.getD 0 0).getLsbD 0 then 2 else 0) + (if (params.getD 0 0).getLsbD 1 then 1 else 0) +
          (if (params.getD 0 0).getLsbD 2 then 2 else 0) + (if (params.getD 0 0).getLsbD 3 then 1 else 0) +
          (if (params.getD 0 0).getLsbD 4 then 1 else 0) + (if (params.getD 0 0).getLsbD 5 then 1 else 0) +
          (if (params.getD 0 0).getLsbD 6 then 1 else 0) →
      exec (.setPart src tag params) s = .next (s.answered src tag 14 .badRequest .none)) ∧
    (∀ (presence : Byte) (ack hail : Option Word) (retry point module head sweep : Option Byte),
      presence.getLsbD 0 = ack.isSome → presence.getLsbD 1 = retry.isSome → presence.getLsbD 2 = hail.isSome →
      presence.getLsbD 3 = point.isSome → presence.getLsbD 4 = module.isSome → presence.getLsbD 5 = head.isSome →
      presence.getLsbD 6 = sweep.isSome →
      let two (f : Option Word) : List Byte := f.elim [] fun w => [w.extractLsb' 8 8, w.extractLsb' 0 8]
      params =
        presence :: (two ack ++ retry.toList ++ two hail ++ point.toList ++ module.toList ++ head.toList ++ sweep.toList) →
      let old := s.start.settings
      let policy (b : Byte) : UnlistedPolicy := if b = 0 then .forward else .drop
      let settings : PartSettings :=
        { ackWait := (ack.map BitVec.toNat).getD old.ackWait
          retryLimit := (retry.map BitVec.toNat).getD old.retryLimit
          hailInterval := (hail.map BitVec.toNat).getD old.hailInterval
          pointPolicy := (point.map policy).getD old.pointPolicy
          modulePolicy := (module.map policy).getD old.modulePolicy
          headClass := (head.map fun b => Fin.ofNat 8 b.toNat).getD old.headClass
          sweepRank := (sweep.map fun b => Fin.ofNat 8 b.toNat).getD old.sweepRank }
      exec (.setPart src tag params) s = .next
        (if (∀ w ∈ ack, 5 ≤ w.toNat ∧ w.toNat ≤ 1275 ∧ w.toNat % 5 = 0) ∧ (∀ b ∈ retry, 1 ≤ b.toNat ∧ b.toNat ≤ 7) ∧
            (∀ w ∈ hail, 100 ≤ w.toNat ∧ w.toNat ≤ 25500 ∧ w.toNat % 100 = 0) ∧ (∀ b ∈ point, b.toNat ≤ 1) ∧
            (∀ b ∈ module, b.toNat ≤ 1) ∧ (∀ b ∈ head, b.toNat ≤ 7) ∧ (∀ b ∈ sweep, b.toNat ≤ 7) then
          State.answered { s with start := { s.start with settings := settings } } src tag 14 .done (.settings settings)
        else s.answered src tag 14 .badRequest .none)) ∧
    exec (.discardClass src tag params) s = .next
      (match params with
      | [b] =>
        match readClass b with
        | none => s.answered src tag 15 .badRequest .none
        | some c =>
          State.answered { s with queue := { s.queue with lists := s.queue.lists.set c [] } } src tag 15 .done
            (.discarded (s.queue.lists.get c).length)
      | _ => s.answered src tag 15 .badRequest .none)

/-- ACK, during a commit or copy too: a number within the outstanding range removes every record up to it, and the ack wait timer is
stopped or started afresh by the new oldest record; any other number is STALE-ACK and changes nothing there (R91, R92); a parameter
string that is not two bytes is BAD-REQUEST (R153, R187). -/
def Obligations.AckRemovesFromTheFront : Prop :=
  ∀ (s : State) (src : Node) (tag : Byte), s.mgmt.owner = some src → s.emitter.link = .normal → s.mgmt.cached tag = none →
    (∀ high low : Byte, s.takes src [high, low] →
      exec (.ack src tag [high, low]) s = .next
        (match s.emitter.outstanding.head?, s.emitter.outstanding.getLast? with
        | some oldest, some newest =>
          if ((high ++ low : Word) - oldest.number).toNat ≤ (newest.number - oldest.number).toNat then
            let left := s.emitter.outstanding.drop (((high ++ low : Word) - oldest.number).toNat + 1)
            State.answered
              { s with
                emitter :=
                  { s.emitter with
                    outstanding := left
                    ackTimer :=
                      if oldestIsSent left = true then .running s.start.settings.ackWait s.start.settings.ackWait else .stopped } }
              src tag 16 .done (.acknowledged (((high ++ low : Word) - oldest.number).toNat + 1) left.length)
          else s.answered src tag 16 .staleAck (.outstandingCount s.emitter.outstanding.length)
        | _, _ => s.answered src tag 16 .staleAck (.outstandingCount 0))) ∧
    ∀ params : List Byte, s.takes src params → params.length ≠ 2 →
      exec (.ack src tag params) s = .next (s.answered src tag 16 .badRequest .none)

/-- SWEEP-START, SWEEP-STOP, ARM-MARK and DISARM-MARK by the sweep state, changing the Sweep Generator alone (R104, R109, R115). -/
def Obligations.SweepRequests : Prop :=
  ∀ (s : State) (src : Node) (tag : Byte) (params : List Byte), s.ready src tag params →
    let swept (g : SweepGenerator) : State := { s with sweep := g }
    exec (.sweepStart src tag params) s = .next
      (match params with
      | [code, c] =>
        match readScope code c with
        | none => s.answered src tag 17 .badRequest .none
        | some scope =>
          if s.sweep.state = .idle then
            (swept { s.sweep with state := .active, scope := some scope, cursor := none, number := s.sweep.number + 1, count := 0 }).answered
              src tag 17 .done (.sweepNumber (s.sweep.number + 1))
          else s.answered src tag 17 .busy .none
      | _ => s.answered src tag 17 .badRequest .none) ∧
    exec (.sweepStop src tag params) s = .next
      (if params ≠ [] then s.answered src tag 18 .badRequest .none
      else if s.sweep.state = .idle then s.answered src tag 18 .wrongState .none
      else (swept { s.sweep with state := .stopping }).answered src tag 18 .done .none) ∧
    exec (.armMark src tag params) s = .next
      (match params with
      | [high, low, code, c] =>
        match readScope code c with
        | none => s.answered src tag 19 .badRequest .none
        | some scope =>
          (swept { s.sweep with arm := some ⟨high ++ low, scope⟩, triggerRefused := false }).answered src tag 19 .done .none
      | _ => s.answered src tag 19 .badRequest .none) ∧
    exec (.disarmMark src tag params) s = .next
      (if params = [] then (swept { s.sweep with arm := none }).answered src tag 20 .done .none
      else s.answered src tag 20 .badRequest .none)

/-! ## The operations that take time -/

/-- COMMIT and COPY-ACTIVE taken for execution: the activity, the request in progress and the IN-PROGRESS entry are set and no response
is made; BUSY while the fifth place still holds a final response (R123, R124, R163, R164). -/
def Obligations.OperationsTaken : Prop :=
  ∀ (s : State) (src : Node) (tag : Byte) (params : List Byte), s.ready src tag params →
    let taken (o : Operation) (a : Activity) : State :=
      { s with
        tables := { s.tables with activity := a }
        mgmt := { s.mgmt with inProgress := some ⟨o, tag, src⟩, cache := some ⟨tag, .inProgress⟩ } }
    exec (.copyActive src tag params) s = .next
      (if params ≠ [] then s.answered src tag 11 .badRequest .none
      else if ∃ r ∈ s.ports.responses, r.final = true then s.answered src tag 11 .busy .none
      else taken .copyActive .copying) ∧
    exec (.commit src tag params) s = .next
      (if params ≠ [] then s.answered src tag 12 .badRequest .none
      else if ∃ r ∈ s.ports.responses, r.final = true then s.answered src tag 12 .busy .none
      else taken .commit .committing)

/-- The ends of a copy and of a commit, each in one event with its final response to the recorded node: the copy replaces STAGING; a
commit with an entry of an unlisted module is refused with the lowest such key and changes neither bank; any other commit transfers,
exchanges the banks and increments the generation (R123, R125 to R128, R164). An end that is not due does not come about (log 2). -/
def Obligations.OperationsEnd : Prop :=
  ∀ (s : State) (p : InProgress), s.start.resetHeld = false → s.mgmt.inProgress = some p →
    let ended (t : State) (name : Byte) (status : Status) (results : Results) : State :=
      let r : Response := ⟨p.source, p.tag, name, status, results, true⟩
      { t with
        ports := { t.ports with responses := t.ports.responses ++ [r] }
        mgmt :=
          { t.mgmt with
            inProgress := none
            cache := if t.mgmt.cache = some ⟨p.tag, .inProgress⟩ then some ⟨p.tag, .held r⟩ else t.mgmt.cache } }
    (p.operation = .copyActive → s.tables.activity = .copying →
      exec .copyActiveCompletion s = .next
        (ended
          { s with
            tables :=
              { s.tables.setStaging
                  { entries := s.tables.active.entries.map fun e => { e with run := .emptied }
                    slots := s.tables.active.slots.map fun x => { x with state := .unheard, timer := .stopped } } with
                activity := .idle } }
          11 .done (.copied s.tables.active.entries.length s.tables.active.slots.length)) ∧
      exec .commitCompletion s = .next s ∧ exec .commitRefusal s = .next s) ∧
    (p.operation = .commit → s.tables.activity = .committing →
      exec .copyActiveCompletion s = .next s ∧
      match s.tables.staging.entries.find? fun e => !s.tables.staging.lists e.config.key.station with
      | some e =>
        exec .commitRefusal s = .next
          (ended { s with tables := { s.tables with activity := .idle } } 12 .unlistedModule (.unlistedKey e.config.key)) ∧
        exec .commitCompletion s = .next s
      | none =>
        exec .commitRefusal s = .next s ∧
        exec .commitCompletion s = .next
          (ended
            { s with
              tables :=
                { (s.tables.setStaging (s.tables.active.transferred s.tables.staging (decide (s.start.part = .running)))).setActive
                    { s.tables.active with slots := s.tables.active.slots.map fun x => { x with timer := .stopped } } with
                  mark := s.tables.mark.other, generation := s.tables.generation + 1, activity := .idle } }
            12 .done (.committed (s.tables.generation + 1) s.tables.mark.other)))

/-- The transfer of a commit, entry by entry and slot by slot: the run state of the same-key ACTIVE entry where the test fields are
identical, fitted to the confirm count, emptied otherwise; the state and timer of a module listed in both banks, UNHEARD with its
timer by the part state for a newly listed one. Configuration and order stay as staged (R12, R54, R126, R127). -/
def Obligations.CommitTransfersRunState : Prop :=
  ∀ (active staging : Bank) (running : Bool),
    (active.transferred staging running).entries =
      staging.entries.map (fun e =>
        { e with
          run :=
            match active.entry? e.config.key with
            | some a =>
              if a.config.test ≠ e.config.test then ⟨.unknown, none, 0, none, none⟩
              else if a.run.runLength < e.config.confirm then a.run
              else { a.run with candidate := none, runLength := 0 }
            | none => ⟨.unknown, none, 0, none, none⟩ }) ∧
    (active.transferred staging running).slots =
      staging.slots.map (fun x =>
        match active.slot? x.station with
        | some a => { x with state := a.state, timer := a.timer }
        | none => { x with state := .unheard, timer := if running = true then .running x.limit x.limit else .stopped })

/-! ## Reports, timers and transmissions -/

/-- A report that matches an unsent record is coalesced into it, whatever placement it was handed for, and leaves the rest as it is (R64,
R65); R64 lets at most one record match, and where more do, in states no run reaches, the model rewrites each (log 16). Any other
joins the back of the urgent list, or the front or back of its class list (R66, R67); with 256 records held, the front of the
worst-ranked class list that is not empty is evicted if that class is worse than the report's, and otherwise the report is
discarded; either way the loser's lost count rises (R68). -/
def Obligations.ReportsJoinTheQueue : Prop :=
  (∀ (q : ReportQueue) (classes : PerClass ClassSetting) (r : Report) (urgent : Bool), q.holds r = true →
      let folded (x : Report) : Report :=
        if x.key = r.key ∧ x.kind = r.kind then
          { x with
            value := r.value, verdict := r.verdict, cycle := r.cycle, restart := r.restart
            repeatCount := min 255 (x.repeatCount + 1) }
        else x
      (q.add classes ⟨r, urgent⟩).lost = q.lost ∧ (q.add classes ⟨r, urgent⟩).urgent = q.urgent.map folded ∧
      ∀ c : ReportClass, (q.add classes ⟨r, urgent⟩).lists.get c = (q.lists.get c).map folded) ∧
  (∀ (q : ReportQueue) (classes : PerClass ClassSetting) (r : Report) (urgent : Bool), q.holds r = false →
      (urgent = true → q.urgent.length < 4 →
        q.add classes ⟨r, urgent⟩ = { q with urgent := q.urgent ++ [{ r with urgent := true }] }) ∧
      (urgent = false ∨ 4 ≤ q.urgent.length →
        let placed (l : List Report) : List Report :=
          if urgent = true then { r with urgent := false } :: l else l ++ [{ r with urgent := false }]
        (q.pooled < 256 → q.add classes ⟨r, urgent⟩ = { q with lists := q.lists.set r.cls (placed (q.lists.get r.cls)) }) ∧
        (256 ≤ q.pooled → ∀ w : ReportClass, q.lists.get w ≠ [] →
          (∀ d : ReportClass, q.lists.get d ≠ [] → d ≠ w → worse classes w d = true) →
          q.add classes ⟨r, urgent⟩ =
            if worse classes w r.cls = true then
              { q with
                lists := (q.lists.set w (q.lists.get w).tail).set r.cls (placed ((q.lists.set w (q.lists.get w).tail).get r.cls))
                lost := q.lost.set w (min 255 (q.lost.get w + 1)) }
            else { q with lost := q.lost.set r.cls (min 255 (q.lost.get r.cls + 1)) })))

/-- The expiries of timers that have run out: running with no time left. Silence, in RUNNING, of an UNHEARD or LIVE module: SILENT, its
timer stopped, its debounce runs cleared, a SILENT report, no other slot or entry touched (R49, R50). Ack wait: the oldest record FLAGGED with its retry count
incremented, or, at the retry limit, DEAF with ALERT asserted (R90, R94). Hail: a HAIL pending and the timer restarted (R95). Refill:
one credit below the limit and the timer restarted (R87). A timer that is stopped or has time left does not expire: its expiry
changes nothing (R46; log 3), and so a frame that restarts the silence timer forestalls the expiry that falls together with it
(R35, R51). -/
def Obligations.TimerExpiries : Prop :=
  (∀ (s : State) (m : Station) (x : Slot) (d : Nat), s.start.resetHeld = false → s.start.part = .running →
      s.tables.active.slot? m = some x → x.timer = .running 0 d → x.state ≠ .silent →
      exec (.silenceExpiry m) s = .next
        { s with
          tables :=
            s.tables.setActive
              { entries := s.tables.active.entries.map fun e =>
                  if e.config.key.station = m then { e with run := { e.run with candidate := none, runLength := 0 } } else e
                slots := s.tables.active.slots.map fun y => if y.station = m then { y with state := .silent, timer := .stopped } else y }
          queue := s.queue.add s.emitter.classes ⟨newReport .silent x.cls (.station m) s.sweep.cycle, false⟩ }) ∧
  (∀ (s : State) (o : Outstanding) (rest : List Outstanding) (d : Nat), s.start.resetHeld = false →
      s.emitter.ackTimer = .running 0 d → s.emitter.outstanding = o :: rest →
      exec .ackWaitExpiry s = .next
        (if o.retry < s.start.settings.retryLimit then
          { s with
            emitter :=
              { s.emitter with
                ackTimer := .stopped
                outstanding := { o with retry := o.retry + 1, transmit := .flagged } :: rest } }
        else
          { s with
            emitter :=
              { s.emitter with
                ackTimer := .stopped, link := .deaf
                hailTimer := .running s.start.settings.hailInterval s.start.settings.hailInterval }
            start := { s.start with alert := true } })) ∧
  (∀ (s : State) (d : Nat), s.start.resetHeld = false →
      (s.emitter.link = .deaf → s.emitter.hailTimer = .running 0 d →
        exec .hailExpiry s = .next
          { s with
            emitter :=
              { s.emitter with
                hailPending := true
                hailTimer := .running s.start.settings.hailInterval s.start.settings.hailInterval } }) ∧
      ∀ c : ReportClass, s.started = true → s.emitter.refill.get c = .running 0 d → (s.emitter.classes.get c).period ≠ 0 →
        exec (.refillExpiry c) s = .next
          { s with
            emitter :=
              { s.emitter with
                credits :=
                  if s.emitter.credits.get c < (s.emitter.classes.get c).creditLimit then
                    s.emitter.credits.set c (s.emitter.credits.get c + 1)
                  else s.emitter.credits
                refill :=
                  s.emitter.refill.set c (.running (s.emitter.classes.get c).period (s.emitter.classes.get c).period) } }) ∧
  (∀ s : State,
      let out (x : Timer) : Prop := ∃ d, x = .running 0 d
      (∀ m : Station, (∀ x, s.tables.active.slot? m = some x → ¬out x.timer) → exec (.silenceExpiry m) s = .next s) ∧
      (¬out s.emitter.ackTimer → exec .ackWaitExpiry s = .next s) ∧
      (¬out s.emitter.hailTimer → exec .hailExpiry s = .next s) ∧
      ∀ c : ReportClass, ¬out (s.emitter.refill.get c) → exec (.refillExpiry c) s = .next s) ∧
  ∀ (s t : State) (bytes : List Byte) (src : Node) (origin : Station) (items : List Item) (x : Slot),
    s.start.resetHeld = false → receive true bytes = some ⟨0, src, .point origin items⟩ → s.start.ownNode ≠ 0 →
    s.start.part = .running → s.tables.active.slot? origin = some x → 0 < x.limit →
    exec (.fPortFrameReceived bytes) s = .next t → exec (.silenceExpiry origin) t = .next t

/-- The T-port transmitter free: the front response goes first and leaves the alternation mark; with no response and no report on
offer, or with an ordinary one against an Up frame while the mark is UP-NEXT, the front of the Up FIFO; with nothing else, a pending
HAIL while DEAF (R95, R146, R147, R149). -/
def Obligations.GrantsBesideReports : Prop :=
  ∀ s : State, s.start.resetHeld = false → s.ports.tSending = none →
    (∀ (r : Response) (rest : List Response), s.ports.responses = r :: rest →
      exec .transmitGrant s = .next
        { s with
          ports :=
            { s.ports with
              responses := rest, sequence := s.ports.sequence + 1
              tSending := some ⟨frameBytes r.dest s.start.ownNode .mgmtRsp s.ports.sequence (responsePayload r), none⟩ } }) ∧
    (s.ports.responses = [] →
      (∀ (f : UpFrame) (rest : List UpFrame), s.ports.up = f :: rest →
        (∀ owner c, s.reportOffer = some (owner, c) → c.isUrgent = false ∧ s.ports.mark = .upNext) →
        exec .transmitGrant s = .next
          { s with
            ports :=
              match f with
              | .rebuilt dest origin items =>
                { s.ports with
                  up := rest, mark := .reportNext, sequence := s.ports.sequence + 1
                  tSending := some ⟨frameBytes dest s.start.ownNode .point s.ports.sequence (pointPayload origin items), none⟩ }
              | .passed bytes => { s.ports with up := rest, mark := .reportNext, tSending := some ⟨bytes, none⟩ } }) ∧
      (∀ (owner : Node) (o : Outstanding) (rest : List Outstanding), s.ports.up = [] → s.emitter.link = .deaf →
        s.emitter.hailPending = true → s.mgmt.owner = some owner → s.emitter.outstanding = o :: rest →
        exec .transmitGrant s = .next
          { s with
            emitter := { s.emitter with hailPending := false }
            ports :=
              { s.ports with
                sequence := s.ports.sequence + 1
                tSending :=
                  some
                    ⟨frameBytes owner s.start.ownNode .hail s.ports.sequence
                      (wordBytes o.number ++ [byteOf (rest.length + 1)]), none⟩ } }))

/-- The grant of a report that the Emitter's choice supplies: the oldest FLAGGED record again under its number; else the front of the
urgent list, or of the class list that wins, numbered, with the class's lost count handed over, the class paying; else a sweep's
report. The mark becomes UP-NEXT at the ordinary level alone (R82, R84 to R86, R147). -/
def Obligations.GrantsOfReports : Prop :=
  ∀ (s : State) (owner : Node) (choice : Choice), s.start.resetHeld = false → s.ports.tSending = none →
    s.ports.responses = [] → s.reportOffer = some (owner, choice) →
    choice.isUrgent = true ∨ s.ports.up = [] ∨ s.ports.mark = .reportNext →
    let sent (t : State) (o : Outstanding) : State :=
      { t with
        ports :=
          { t.ports with
            sequence := t.ports.sequence + 1
            mark := if choice.isUrgent = true then t.ports.mark else .upNext
            tSending := some ⟨frameBytes owner t.start.ownNode .report t.ports.sequence (reportPayload o), some o.number⟩ } }
    let first (t : State) (r : Report) (lost : Nat) : State :=
      let o : Outstanding := ⟨{ r with lostBefore := min 255 (r.lostBefore + lost) }, t.emitter.nextNumber, 0, .sending⟩
      sent
        { t with
          emitter := { t.emitter with nextNumber := t.emitter.nextNumber + 1, outstanding := t.emitter.outstanding ++ [o] } }
        o
    exec .transmitGrant s = .next
      (match choice with
      | .retransmit o =>
        sent
          { s with
            emitter :=
              { s.emitter with
                outstanding := s.emitter.outstanding.map fun x => if x.number = o.number then { x with transmit := .sending } else x } }
          o
      | .urgent r =>
        first { s with queue := { s.queue with urgent := s.queue.urgent.tail, lost := s.queue.lost.set r.cls 0 } } r
          (s.queue.lost.get r.cls)
      | .fromClass c r =>
        first
          { s with
            queue := { s.queue with lists := s.queue.lists.set c (s.queue.lists.get c).tail, lost := s.queue.lost.set c 0 }
            emitter :=
              { s.emitter with
                credits :=
                  if (s.emitter.classes.get c).period = 0 then s.emitter.credits
                  else s.emitter.credits.set c (s.emitter.credits.get c - 1) } }
          r (s.queue.lost.get c)
      | .sweep => first { s with sweep := s.sweepWin.2 } s.sweepWin.1 0)

/-- The Emitter's choice: a FLAGGED record before all else; then, with fewer than 32 outstanding, the front of the urgent list; then the
contest, which the best-ranked class that can pay wins, the lower number of equal ranks, and the sweep only over a worse rank; and
nothing without an owner, while DEAF, or outside HELD and RUNNING (R81 to R83). -/
def Obligations.EmitterChoice : Prop :=
  ∀ s : State,
    (∀ owner choice, s.reportOffer = some (owner, choice) ↔
      s.mgmt.owner = some owner ∧ s.emitter.link = .normal ∧ s.started = true ∧ s.choice = some choice) ∧
    (∀ c : ReportClass, s.bestClass = some c ↔
      s.classContends c = true ∧
      ∀ d : ReportClass, s.classContends d = true → d ≠ c →
        (s.emitter.classes.get c).rank < (s.emitter.classes.get d).rank ∨
        ((s.emitter.classes.get c).rank = (s.emitter.classes.get d).rank ∧ c < d)) ∧
    (∀ c : ReportClass, s.classContends c = true ↔
      (s.emitter.classes.get c).enabled = true ∧ s.queue.lists.get c ≠ [] ∧
        ((s.emitter.classes.get c).period = 0 ∨ 0 < s.emitter.credits.get c)) ∧
    s.choice =
      match s.emitter.outstanding.find? fun o => decide (o.transmit = .flagged) with
      | some o => some (.retransmit o)
      | none =>
        if 32 ≤ s.emitter.outstanding.length then none
        else
          match s.queue.urgent, s.bestClass with
          | r :: _, _ => some (.urgent r)
          | [], some c =>
            if s.sweepContends = true ∧ s.start.settings.sweepRank < (s.emitter.classes.get c).rank then some .sweep
            else (s.queue.lists.get c).head?.map (.fromClass c)
          | [], none => if s.sweepContends = true then some .sweep else none

/-- A win of the Sweep Generator: it contends in RUNNING, a STOPPING sweep in HELD too, with table activity IDLE; a STOPPING sweep ends
with SWEEP-END STOPPED; an ACTIVE one reports the first entry in scope beyond its cursor, or ends COMPLETE (R104 to R109). -/
def Obligations.SweepWins : Prop :=
  ∀ s : State,
    (s.sweepContends = true ↔
      s.tables.activity = .idle ∧
        ((s.start.part = .running ∧ s.sweep.state ≠ .idle) ∨ (s.start.part = .held ∧ s.sweep.state = .stopping))) ∧
    (s.sweep.state = .stopping →
      s.sweepWin =
        ({ kind := .sweepEnd, cls := s.start.settings.headClass, key := .head, verdict := none, value := none, prior := none
           cycle := s.sweep.cycle, repeatCount := 1, lostBefore := 0, urgent := false, restart := none
           sweep := some ⟨s.sweep.number, s.sweep.count, some .stopped⟩ },
          { s.sweep with state := .idle, lastEnd := .stopped })) ∧
    ∀ scope : Scope, s.sweep.state = .active → s.sweep.scope = some scope →
      s.sweepWin =
        match s.tables.active.entries.find? fun e =>
            decide (∀ k ∈ s.sweep.cursor, k.index < e.config.key.index) &&
              (match scope with
              | .all => true
              | .disagree => decide (e.run.verdict = .disagree ∨ e.run.verdict = .faulted)
              | .cls c => decide (e.config.cls = c)) with
        | some e =>
          ({ kind := .sweep, cls := e.config.cls, key := .point e.config.key, verdict := some e.run.verdict, value := e.run.last
             prior := none, cycle := s.sweep.cycle, repeatCount := 1, lostBefore := 0, urgent := false, restart := none
             sweep := some ⟨s.sweep.number, min 512 (s.sweep.count + 1), none⟩ },
            { s.sweep with cursor := some e.config.key, count := min 512 (s.sweep.count + 1) })
        | none =>
          ({ kind := .sweepEnd, cls := s.start.settings.headClass, key := .head, verdict := none, value := none, prior := none
             cycle := s.sweep.cycle, repeatCount := 1, lostBefore := 0, urgent := false, restart := none
             sweep := some ⟨s.sweep.number, s.sweep.count, some .complete⟩ },
            { s.sweep with state := .idle, lastEnd := .complete })

/-- The ends of transmissions: the T-port's frame leaves it free, and the end of a copy makes its record SENT if it is still SENDING,
starting the ack wait timer if it is the oldest and the link NORMAL; the free F-port takes the front of the Down FIFO; the end of
its frame leaves it free (R80, R89, R144, R148). -/
def Obligations.EndsOfTransmission : Prop :=
  ∀ s : State, s.start.resetHeld = false →
    (∀ f : Sending, s.ports.tSending = some f →
      exec .tPortFrameEnd s = .next
        { s with
          ports := { s.ports with tSending := none }
          emitter :=
            { s.emitter with
              outstanding := s.emitter.outstanding.map fun o =>
                if f.report = some o.number ∧ o.transmit = .sending then { o with transmit := .sent } else o
              ackTimer :=
                match s.emitter.outstanding with
                | o :: _ =>
                  if f.report = some o.number ∧ o.transmit = .sending then
                    if s.emitter.link = .normal then .running s.start.settings.ackWait s.start.settings.ackWait else .stopped
                  else s.emitter.ackTimer
                | [] => s.emitter.ackTimer } }) ∧
    (∀ (f : List Byte) (rest : List (List Byte)), s.ports.fSending = none → s.ports.down = f :: rest →
      exec .fPortTransmitStart s = .next { s with ports := { s.ports with down := rest, fSending := some f } }) ∧
    exec .fPortTransmitEnd s = .next { s with ports := { s.ports with fSending := none } }

/-! ## Laws of the part -/

/-- Without an owner no REPORT or HAIL frame is granted, and while DEAF no REPORT frame: a grant then takes no record, numbers none,
and leaves queue and sweep as they stand; without an owner it leaves the whole Emitter (R81, R94). -/
def Obligations.NoReportWithoutOwnerOrWhileDeaf : Prop :=
  ∀ s t : State, exec .transmitGrant s = .next t → s.mgmt.owner = none ∨ s.emitter.link = .deaf →
    t.queue = s.queue ∧ t.sweep = s.sweep ∧ t.emitter.outstanding = s.emitter.outstanding ∧
    t.emitter.nextNumber = s.emitter.nextNumber ∧ (s.mgmt.owner = none → t.emitter = s.emitter) ∧
    (t.ports.tSending = s.ports.tSending ∨ ∃ bytes, t.ports.tSending = some ⟨bytes, none⟩)

/-- A record leaves the outstanding list only by an ACK, a change of owner, or a restart or pin reset: every other command keeps every
number in its place, adding at the back alone (R79). -/
def Obligations.RecordsLeaveOnlyByAckOwnerOrRestart : Prop :=
  ∀ (s t : State) (c : Instr), exec c s = .next t → (∀ pins, c ≠ .endOfPinReset pins) →
    (∀ bytes pins, c ≠ .tPortFrameReceived bytes pins) →
    (∀ n, commandName c = some n → n ∉ [RequestName.ack, .claim, .yieldOwnership, .restart]) →
    s.emitter.outstanding.map Outstanding.number <+: t.emitter.outstanding.map Outstanding.number

/-- Within one sweep the cursor only moves forward in key order, to the key of an entry of the ACTIVE bank, and the count only grows
(R106): of every command that leaves the sweep number as it is and is no reset. -/
def Obligations.CursorAscends : Prop :=
  ∀ (s t : State) (c : Instr), exec c s = .next t → t.sweep.number = s.sweep.number →
    (∀ pins, c ≠ .endOfPinReset pins) → (∀ src tag pins, c ≠ .coldRestart src tag pins) →
    (∀ bytes pins, c ≠ .tPortFrameReceived bytes pins) →
    t.sweep.cursor = s.sweep.cursor ∧ t.sweep.count = s.sweep.count ∨
    ∃ e ∈ s.tables.active.entries,
      t.sweep.cursor = some e.config.key ∧ (∀ k ∈ s.sweep.cursor, k.index < e.config.key.index) ∧
      t.sweep.count = min 512 (s.sweep.count + 1)

/-! ## Layouts -/

/-- Reading back what the layouts write: a point entry in its ranges, a POINT payload of 1 to 8 items, the four settings of a class and
a module listing in theirs (R184, R185, R187). -/
def Obligations.LayoutsReadBack : Prop :=
  (∀ c : EntryConfig, c.inRange → readEntryConfig (entryConfigBytes c) = some c) ∧
  (∀ (origin : Station) (items : List Item), 1 ≤ origin.val → 1 ≤ items.length → items.length ≤ 8 →
    readPointPayload (pointPayload origin items) = some (origin, items)) ∧
  (∀ (c : ReportClass) (x : ClassSetting), x.inRange →
    readClassSetting [byteOf c.val, byteOf x.rank.val, boolByte x.enabled, byteOf x.creditLimit, byteOf x.period] = some (c, x)) ∧
  ∀ (m : Station) (limit : Nat) (cls : ReportClass), 1 ≤ m.val → 10 ≤ limit → limit ≤ 2550 → limit % 10 = 0 →
    readModuleListing (byteOf m.val :: twoBytes limit ++ [byteOf cls.val]) = some (m, limit, cls)

/-- The receive checks, R134, on every string of bytes: a frame passes exactly when it is header, payload and CRC as R185 lays them out,
the payload length at most 240 and its own, the source 1 to 126, the kind one of seven and a POINT or SCAN-MARK payload as its kind
asks, the origin of a POINT frame on the F-port being its source; with the CRC bit by bit. So a frame that the part originates
passes another part's T-port, with its destination, source and kind, whatever its sequence: REPORT, MGMT-RSP and HAIL frames of up
to 240 payload bytes, and rebuilt POINT frames (R133, R134, R185). -/
def Obligations.OwnFramesPassTheChecks : Prop :=
  (∀ (onFPort : Bool) (bytes : List Byte) (f : LinkFrame),
    receive onFPort bytes = some f ↔
      ∃ (d s k q n : Byte) (payload : List Byte),
        bytes =
          d :: s :: k :: q :: n ::
            (payload ++
              [(crc (d :: s :: k :: q :: n :: payload)).extractLsb' 8 8,
                (crc (d :: s :: k :: q :: n :: payload)).extractLsb' 0 8]) ∧
        n.toNat = payload.length ∧ payload.length ≤ 240 ∧ 1 ≤ s.toNat ∧ s.toNat ≤ 126 ∧
        f.dest = d.setWidth 7 ∧ f.src = s.setWidth 7 ∧
        ((k = 1 ∧ ∃ (origin : Station) (items : List Item),
            1 ≤ origin.val ∧ 1 ≤ items.length ∧ items.length ≤ 8 ∧ (onFPort = true → origin.val = s.toNat) ∧
            payload =
              BitVec.ofNat 8 origin.val :: BitVec.ofNat 8 items.length ::
                items.flatMap (fun i =>
                  [BitVec.ofNat 8 i.point.val, if i.quality = .good then 0 else 1, i.value.extractLsb' 8 8,
                    i.value.extractLsb' 0 8]) ∧
            f.body = .point origin items) ∨
          (k = 3 ∧ ∃ high low : Byte, payload = [high, low] ∧ f.body = .scanMark (high ++ low)) ∨
          (k = 4 ∧ f.body = .mgmtReq payload) ∨
          ((k = 2 ∨ k = 5 ∨ k = 6 ∨ k = 7) ∧ f.body = .unread))) ∧
  (crc [] = 65535 ∧
    ∀ (bytes : List Byte) (b : Byte),
      crc (bytes ++ [b]) =
        (fun c : Word => if c.msb = true then (c <<< 1) ^^^ 0x1021#16 else c <<< 1)^[8] (crc bytes ^^^ (b ++ 0#8))) ∧
  ∀ (dest src : Node) (sequence : Byte), 1 ≤ src.toNat → src.toNat ≤ 126 →
    (∀ (kind : OwnKind) (payload : List Byte), kind ≠ .point → payload.length ≤ 240 →
      receive false (frameBytes dest src kind sequence payload) = some ⟨dest, src, .unread⟩) ∧
    ∀ (origin : Station) (items : List Item), 1 ≤ origin.val → 1 ≤ items.length → items.length ≤ 8 →
      receive false (frameBytes dest src .point sequence (pointPayload origin items)) = some ⟨dest, src, .point origin items⟩

/-! ## Invariants -/

/-- The state after reset obeys every law of Sys2Proof/Safety.lean. -/
def Obligations.ResetIsSound : Prop := State.reset.sound

/-- Every step keeps both banks in canonical form, every run state within R12, and every ACTIVE entry's module listed (R4, R12, R15,
R17). -/
def Obligations.StepKeepsTablesSound : Prop :=
  ∀ s t : State, s.tables.sound → step s = .next t → t.tables.sound

/-- Every step keeps the silence timers as the part state and the module states have them (R45, R46, R49). -/
def Obligations.StepKeepsSupervision : Prop :=
  ∀ s t : State, s.supervised → step s = .next t → t.supervised

/-- Every step keeps the laws of the class lists and the urgent list, their capacities among them (R57, R58, R60, R62). -/
def Obligations.StepKeepsQueueSound : Prop :=
  ∀ s t : State, s.queueSound → step s = .next t → t.queueSound

/-- Every step keeps the unsent records distinct in key and kind (R64). -/
def Obligations.StepKeepsRecordsDistinct : Prop :=
  ∀ s t : State, s.queue.distinct → step s = .next t → t.queue.distinct

/-- Every step keeps the outstanding list within 32 records with consecutive numbers, and the ack wait timer running exactly while the
oldest is SENT and the link NORMAL (R79, R89). -/
def Obligations.StepKeepsOutstandingSound : Prop :=
  ∀ s t : State, s.outstandingSound → step s = .next t → t.outstandingSound

/-- Every step keeps each credit within its credit limit, each setting in its range and each retry count within 7 (R79, R86, R168). -/
def Obligations.StepKeepsSettingsSound : Prop :=
  ∀ s t : State, s.settingsSound → step s = .next t → t.settingsSound

/-- Every step keeps ownership, link and ALERT together: nothing outstanding and no sweep without an owner; ALERT exactly while DEAF or
with the start alert (R79, R94, R112, R154, R180). -/
def Obligations.StepKeepsLinkSound : Prop :=
  ∀ s t : State, s.linkSound → step s = .next t → t.linkSound

/-- Every step keeps the response list and the FIFOs within their places, the operation in progress with the table activity, and the
repeat cache with an owner (R3, R143 to R145, R161, R164). -/
def Obligations.StepKeepsRequestsSound : Prop :=
  ∀ s t : State, s.requestsSound → step s = .next t → t.requestsSound
end

