-- ==== Sys2Proof/Laws/State.lean ====
section
/-!
SUPPORT. One lemma for each field of `State` under each of its updates, and the values of `PerClass` after its updates, so that no
later proof unfolds a record update.
-/

namespace Sys2Proof.Machine

/-! ## After `withTables` -/

@[simp] theorem State.withTables_tables (s : State) (x : TableStore) : (s.withTables x).tables = x := rfl
@[simp] theorem State.withTables_queue (s : State) (x : TableStore) : (s.withTables x).queue = s.queue := rfl
@[simp] theorem State.withTables_emitter (s : State) (x : TableStore) : (s.withTables x).emitter = s.emitter := rfl
@[simp] theorem State.withTables_sweep (s : State) (x : TableStore) : (s.withTables x).sweep = s.sweep := rfl
@[simp] theorem State.withTables_ports (s : State) (x : TableStore) : (s.withTables x).ports = s.ports := rfl
@[simp] theorem State.withTables_mgmt (s : State) (x : TableStore) : (s.withTables x).mgmt = s.mgmt := rfl
@[simp] theorem State.withTables_start (s : State) (x : TableStore) : (s.withTables x).start = s.start := rfl
@[simp] theorem State.withTables_freeCount (s : State) (x : TableStore) : (s.withTables x).freeCount = s.freeCount := rfl
@[simp] theorem State.withTables_pending (s : State) (x : TableStore) : (s.withTables x).pending = s.pending := rfl

/-! ## After `withQueue` -/

@[simp] theorem State.withQueue_tables (s : State) (x : ReportQueue) : (s.withQueue x).tables = s.tables := rfl
@[simp] theorem State.withQueue_queue (s : State) (x : ReportQueue) : (s.withQueue x).queue = x := rfl
@[simp] theorem State.withQueue_emitter (s : State) (x : ReportQueue) : (s.withQueue x).emitter = s.emitter := rfl
@[simp] theorem State.withQueue_sweep (s : State) (x : ReportQueue) : (s.withQueue x).sweep = s.sweep := rfl
@[simp] theorem State.withQueue_ports (s : State) (x : ReportQueue) : (s.withQueue x).ports = s.ports := rfl
@[simp] theorem State.withQueue_mgmt (s : State) (x : ReportQueue) : (s.withQueue x).mgmt = s.mgmt := rfl
@[simp] theorem State.withQueue_start (s : State) (x : ReportQueue) : (s.withQueue x).start = s.start := rfl
@[simp] theorem State.withQueue_freeCount (s : State) (x : ReportQueue) : (s.withQueue x).freeCount = s.freeCount := rfl
@[simp] theorem State.withQueue_pending (s : State) (x : ReportQueue) : (s.withQueue x).pending = s.pending := rfl

/-! ## After `withEmitter` -/

@[simp] theorem State.withEmitter_tables (s : State) (x : Emitter) : (s.withEmitter x).tables = s.tables := rfl
@[simp] theorem State.withEmitter_queue (s : State) (x : Emitter) : (s.withEmitter x).queue = s.queue := rfl
@[simp] theorem State.withEmitter_emitter (s : State) (x : Emitter) : (s.withEmitter x).emitter = x := rfl
@[simp] theorem State.withEmitter_sweep (s : State) (x : Emitter) : (s.withEmitter x).sweep = s.sweep := rfl
@[simp] theorem State.withEmitter_ports (s : State) (x : Emitter) : (s.withEmitter x).ports = s.ports := rfl
@[simp] theorem State.withEmitter_mgmt (s : State) (x : Emitter) : (s.withEmitter x).mgmt = s.mgmt := rfl
@[simp] theorem State.withEmitter_start (s : State) (x : Emitter) : (s.withEmitter x).start = s.start := rfl
@[simp] theorem State.withEmitter_freeCount (s : State) (x : Emitter) : (s.withEmitter x).freeCount = s.freeCount := rfl
@[simp] theorem State.withEmitter_pending (s : State) (x : Emitter) : (s.withEmitter x).pending = s.pending := rfl

/-! ## After `withSweep` -/

@[simp] theorem State.withSweep_tables (s : State) (x : SweepGenerator) : (s.withSweep x).tables = s.tables := rfl
@[simp] theorem State.withSweep_queue (s : State) (x : SweepGenerator) : (s.withSweep x).queue = s.queue := rfl
@[simp] theorem State.withSweep_emitter (s : State) (x : SweepGenerator) : (s.withSweep x).emitter = s.emitter := rfl
@[simp] theorem State.withSweep_sweep (s : State) (x : SweepGenerator) : (s.withSweep x).sweep = x := rfl
@[simp] theorem State.withSweep_ports (s : State) (x : SweepGenerator) : (s.withSweep x).ports = s.ports := rfl
@[simp] theorem State.withSweep_mgmt (s : State) (x : SweepGenerator) : (s.withSweep x).mgmt = s.mgmt := rfl
@[simp] theorem State.withSweep_start (s : State) (x : SweepGenerator) : (s.withSweep x).start = s.start := rfl
@[simp] theorem State.withSweep_freeCount (s : State) (x : SweepGenerator) : (s.withSweep x).freeCount = s.freeCount := rfl
@[simp] theorem State.withSweep_pending (s : State) (x : SweepGenerator) : (s.withSweep x).pending = s.pending := rfl

/-! ## After `withPorts` -/

@[simp] theorem State.withPorts_tables (s : State) (x : Ports) : (s.withPorts x).tables = s.tables := rfl
@[simp] theorem State.withPorts_queue (s : State) (x : Ports) : (s.withPorts x).queue = s.queue := rfl
@[simp] theorem State.withPorts_emitter (s : State) (x : Ports) : (s.withPorts x).emitter = s.emitter := rfl
@[simp] theorem State.withPorts_sweep (s : State) (x : Ports) : (s.withPorts x).sweep = s.sweep := rfl
@[simp] theorem State.withPorts_ports (s : State) (x : Ports) : (s.withPorts x).ports = x := rfl
@[simp] theorem State.withPorts_mgmt (s : State) (x : Ports) : (s.withPorts x).mgmt = s.mgmt := rfl
@[simp] theorem State.withPorts_start (s : State) (x : Ports) : (s.withPorts x).start = s.start := rfl
@[simp] theorem State.withPorts_freeCount (s : State) (x : Ports) : (s.withPorts x).freeCount = s.freeCount := rfl
@[simp] theorem State.withPorts_pending (s : State) (x : Ports) : (s.withPorts x).pending = s.pending := rfl

/-! ## After `withMgmt` -/

@[simp] theorem State.withMgmt_tables (s : State) (x : ManagementUnit) : (s.withMgmt x).tables = s.tables := rfl
@[simp] theorem State.withMgmt_queue (s : State) (x : ManagementUnit) : (s.withMgmt x).queue = s.queue := rfl
@[simp] theorem State.withMgmt_emitter (s : State) (x : ManagementUnit) : (s.withMgmt x).emitter = s.emitter := rfl
@[simp] theorem State.withMgmt_sweep (s : State) (x : ManagementUnit) : (s.withMgmt x).sweep = s.sweep := rfl
@[simp] theorem State.withMgmt_ports (s : State) (x : ManagementUnit) : (s.withMgmt x).ports = s.ports := rfl
@[simp] theorem State.withMgmt_mgmt (s : State) (x : ManagementUnit) : (s.withMgmt x).mgmt = x := rfl
@[simp] theorem State.withMgmt_start (s : State) (x : ManagementUnit) : (s.withMgmt x).start = s.start := rfl
@[simp] theorem State.withMgmt_freeCount (s : State) (x : ManagementUnit) : (s.withMgmt x).freeCount = s.freeCount := rfl
@[simp] theorem State.withMgmt_pending (s : State) (x : ManagementUnit) : (s.withMgmt x).pending = s.pending := rfl

/-! ## After `withStart` -/

@[simp] theorem State.withStart_tables (s : State) (x : StartController) : (s.withStart x).tables = s.tables := rfl
@[simp] theorem State.withStart_queue (s : State) (x : StartController) : (s.withStart x).queue = s.queue := rfl
@[simp] theorem State.withStart_emitter (s : State) (x : StartController) : (s.withStart x).emitter = s.emitter := rfl
@[simp] theorem State.withStart_sweep (s : State) (x : StartController) : (s.withStart x).sweep = s.sweep := rfl
@[simp] theorem State.withStart_ports (s : State) (x : StartController) : (s.withStart x).ports = s.ports := rfl
@[simp] theorem State.withStart_mgmt (s : State) (x : StartController) : (s.withStart x).mgmt = s.mgmt := rfl
@[simp] theorem State.withStart_start (s : State) (x : StartController) : (s.withStart x).start = x := rfl
@[simp] theorem State.withStart_freeCount (s : State) (x : StartController) : (s.withStart x).freeCount = s.freeCount := rfl
@[simp] theorem State.withStart_pending (s : State) (x : StartController) : (s.withStart x).pending = s.pending := rfl

/-! ## After `withFreeCount` -/

@[simp] theorem State.withFreeCount_tables (s : State) (x : Nat) : (s.withFreeCount x).tables = s.tables := rfl
@[simp] theorem State.withFreeCount_queue (s : State) (x : Nat) : (s.withFreeCount x).queue = s.queue := rfl
@[simp] theorem State.withFreeCount_emitter (s : State) (x : Nat) : (s.withFreeCount x).emitter = s.emitter := rfl
@[simp] theorem State.withFreeCount_sweep (s : State) (x : Nat) : (s.withFreeCount x).sweep = s.sweep := rfl
@[simp] theorem State.withFreeCount_ports (s : State) (x : Nat) : (s.withFreeCount x).ports = s.ports := rfl
@[simp] theorem State.withFreeCount_mgmt (s : State) (x : Nat) : (s.withFreeCount x).mgmt = s.mgmt := rfl
@[simp] theorem State.withFreeCount_start (s : State) (x : Nat) : (s.withFreeCount x).start = s.start := rfl
@[simp] theorem State.withFreeCount_freeCount (s : State) (x : Nat) : (s.withFreeCount x).freeCount = x := rfl
@[simp] theorem State.withFreeCount_pending (s : State) (x : Nat) : (s.withFreeCount x).pending = s.pending := rfl

/-! ## After `withPending` -/

@[simp] theorem State.withPending_tables (s : State) (x : List Instr) : (s.withPending x).tables = s.tables := rfl
@[simp] theorem State.withPending_queue (s : State) (x : List Instr) : (s.withPending x).queue = s.queue := rfl
@[simp] theorem State.withPending_emitter (s : State) (x : List Instr) : (s.withPending x).emitter = s.emitter := rfl
@[simp] theorem State.withPending_sweep (s : State) (x : List Instr) : (s.withPending x).sweep = s.sweep := rfl
@[simp] theorem State.withPending_ports (s : State) (x : List Instr) : (s.withPending x).ports = s.ports := rfl
@[simp] theorem State.withPending_mgmt (s : State) (x : List Instr) : (s.withPending x).mgmt = s.mgmt := rfl
@[simp] theorem State.withPending_start (s : State) (x : List Instr) : (s.withPending x).start = s.start := rfl
@[simp] theorem State.withPending_freeCount (s : State) (x : List Instr) : (s.withPending x).freeCount = s.freeCount := rfl
@[simp] theorem State.withPending_pending (s : State) (x : List Instr) : (s.withPending x).pending = x := rfl

/-! ## One value for each class -/

@[simp] theorem PerClass.get_ofFn {α : Type} (f : ReportClass → α) (c : ReportClass) : (PerClass.ofFn f).get c = f c := by
  fin_cases c <;> rfl

@[simp] theorem PerClass.get_set {α : Type} (p : PerClass α) (c d : ReportClass) (a : α) :
    (p.set c a).get d = if d = c then a else p.get d := by
  simp only [PerClass.set, PerClass.get_ofFn]

theorem PerClass.get_set_self {α : Type} (p : PerClass α) (c : ReportClass) (a : α) : (p.set c a).get c = a := by simp

theorem PerClass.get_set_ne {α : Type} (p : PerClass α) {c d : ReportClass} (h : d ≠ c) (a : α) : (p.set c a).get d = p.get d := by
  simp [h]

/-- Two values that agree on every class are the same. -/
theorem PerClass.ext_get {α : Type} {p q : PerClass α} (h : ∀ c, p.get c = q.get c) : p = q := by
  obtain ⟨p0, p1, p2, p3, p4, p5, p6, p7⟩ := p
  obtain ⟨q0, q1, q2, q3, q4, q5, q6, q7⟩ := q
  have h0 := h 0; have h1 := h 1; have h2 := h 2; have h3 := h 3
  have h4 := h 4; have h5 := h 5; have h6 := h 6; have h7 := h 7
  simp only [PerClass.get] at h0 h1 h2 h3 h4 h5 h6 h7
  subst h0 h1 h2 h3 h4 h5 h6 h7
  rfl

/-- The eight values in class order are the values of the eight classes. -/
theorem PerClass.toList_eq {α : Type} (p : PerClass α) : p.toList = allClasses.map p.get := rfl

theorem PerClass.mem_toList {α : Type} (p : PerClass α) (a : α) : a ∈ p.toList ↔ ∃ c, p.get c = a := by
  rw [PerClass.toList_eq, List.mem_map]
  constructor
  · rintro ⟨c, -, h⟩; exact ⟨c, h⟩
  · rintro ⟨c, h⟩; exact ⟨c, by fin_cases c <;> simp [allClasses], h⟩

theorem mem_allClasses (c : ReportClass) : c ∈ allClasses := by fin_cases c <;> simp [allClasses]

/-! ## Timers -/

@[simp] theorem Timer.isRunning_stopped : Timer.stopped.isRunning = false := rfl

@[simp] theorem Timer.isRunning_running (n d : Nat) : (Timer.running n d).isRunning = true := rfl

@[simp] theorem Timer.isRunning_start (d : Nat) : (Timer.start d).isRunning = true := rfl

end Sys2Proof.Machine
end

