-- ==== Sys2Proof/Laws/Commands.lean ====
section
/-!
SUPPORT. The commands that are not requests, each under the premises that let its event come about: what `exec` then answers, with the
guards gone. And `whenReleased`, once and for all.
-/

namespace Sys2Proof.Machine

/-- With RESET released a command's effect comes about. -/
theorem whenReleased_released {s : State} (h : s.start.resetHeld = false) (f : State → State) :
    whenReleased s f = .next (f s) := by
  simp only [whenReleased, h, Bool.false_eq_true, if_false]

/-- While RESET is held no command has an effect (R174). -/
theorem whenReleased_held {s : State} (h : s.start.resetHeld = true) (f : State → State) : whenReleased s f = .next s := by
  simp only [whenReleased, h, if_true]

/-- What a guarded command can do: nothing while RESET is held, its effect otherwise. -/
theorem whenReleased_cases {s t : State} {f : State → State} (h : whenReleased s f = .next t) :
    s.start.resetHeld = true ∧ t = s ∨ s.start.resetHeld = false ∧ t = f s := by
  cases hr : s.start.resetHeld
  · rw [whenReleased_released hr] at h; cases h; exact .inr ⟨rfl, rfl⟩
  · rw [whenReleased_held hr] at h; cases h; exact .inl ⟨rfl, rfl⟩

/-! ## The image load -/

/-- The header read when it is due (R175). -/
theorem exec_imageHeaderRead {s : State} {answer : List Byte} (h1 : s.start.resetHeld = false) (h2 : s.start.part = .loading)
    (h3 : s.start.loader.phase = .header) :
    exec (.imageHeaderRead answer) s = .next
      (match readHeader answer with
      | .ok h => s.headerRead answer h
      | .error e => s.loadFails e) := by
  have h4 : s.reads .header = true := by simp only [State.reads, h2, h3, decide_true, Bool.and_self]
  simp only [exec, execImageHeaderRead, whenReleased_released h1, h4, if_true]
  all_goals (cases readHeader answer <;> rfl)

/-- A record read when it is due (R176). -/
theorem exec_imageRecordRead {s : State} {answer : List Byte} {left : Nat} (h1 : s.start.resetHeld = false)
    (h2 : s.start.part = .loading) (h3 : s.start.loader.phase = .records left) :
    exec (.imageRecordRead answer) s = .next
      (match readRecord answer with
      | .error e => s.loadFails e
      | .ok (r, bytes) => if s.recordOverflows r then s.loadFails .full else (s.applyRecord r).recordRead left bytes) := by
  have h4 : s.recordsLeft = some left := by simp only [State.recordsLeft, h2, h3, if_true]
  simp only [exec, execImageRecordRead, whenReleased_released h1, h4]
  all_goals (cases readRecord answer <;> rfl)

/-- The CRC read when it is due (R177). -/
theorem exec_imageCrcRead {s : State} {answer : List Byte} (h1 : s.start.resetHeld = false) (h2 : s.start.part = .loading)
    (h3 : s.start.loader.phase = .crc) :
    exec (.imageCrcRead answer) s = .next
      (match readImageCrc answer with
      | .ok w => s.finishLoad w
      | .error e => s.loadFails e) := by
  have h4 : s.reads .crc = true := by simp only [State.reads, h2, h3, decide_true, Bool.and_self]
  simp only [exec, execImageCrcRead, whenReleased_released h1, h4, if_true]
  all_goals (cases readImageCrc answer <;> rfl)

/-! ## Frames -/

/-- A frame that fails the F-port's receive checks (R134, R135). -/
theorem exec_fPortFrame_bad {s : State} {bytes : List Byte} (h1 : s.start.resetHeld = false) (h2 : receive true bytes = none) :
    exec (.fPortFrameReceived bytes) s = .next s.fError := by
  simp only [exec, execFPortFrameReceived, whenReleased_released h1, h2]

/-- A good frame on the F-port (R136). -/
theorem exec_fPortFrame_good {s : State} {bytes : List Byte} {f : LinkFrame} (h1 : s.start.resetHeld = false)
    (h2 : receive true bytes = some f) : exec (.fPortFrameReceived bytes) s = .next (s.routeField bytes f) := by
  simp only [exec, execFPortFrameReceived, whenReleased_released h1, h2]

/-- A frame that fails the T-port's receive checks (R134, R135). -/
theorem exec_tPortFrame_bad {s : State} {bytes : List Byte} {pins : Pins} (h1 : s.start.resetHeld = false)
    (h2 : receive false bytes = none) : exec (.tPortFrameReceived bytes pins) s = .next s.tError := by
  simp only [exec, execTPortFrameReceived, whenReleased_released h1, h2]

/-- A good frame on the T-port (R138). -/
theorem exec_tPortFrame_good {s : State} {bytes : List Byte} {pins : Pins} {f : LinkFrame} (h1 : s.start.resetHeld = false)
    (h2 : receive false bytes = some f) : exec (.tPortFrameReceived bytes pins) s = .next (s.routeTrunk pins bytes f) := by
  simp only [exec, execTPortFrameReceived, whenReleased_released h1, h2]

/-- A POINT frame for the head (R136). -/
theorem routeField_point {s : State} {bytes : List Byte} {src : Node} {origin : Station} {items : List Item}
    (h : s.start.ownNode ≠ 0) : s.routeField bytes ⟨0, src, .point origin items⟩ = s.takePoint origin items := by
  simp only [State.routeField, Ne.symm h, if_false]; rfl

/-! ## Operations, timers and transmissions -/

/-- The end of a copy in progress (R123). -/
theorem exec_copyActiveCompletion {s : State} (h1 : s.start.resetHeld = false) (h2 : s.tables.activity = .copying) :
    exec .copyActiveCompletion s = .next s.completeCopy := by
  simp only [exec, execCopyActiveCompletion, whenReleased_released h1, h2, if_true]

/-- The end of a commit whose check passes (R126). -/
theorem exec_commitCompletion {s : State} (h1 : s.start.resetHeld = false) (h2 : s.tables.activity = .committing)
    (h3 : s.tables.staging.firstUnlisted = none) : exec .commitCompletion s = .next s.completeCommit := by
  simp only [exec, execCommitCompletion, whenReleased_released h1, h2, h3, and_self, if_true]

/-- The refusal of a commit whose check fails (R125). -/
theorem exec_commitRefusal {s : State} {k : PointKey} (h1 : s.start.resetHeld = false) (h2 : s.tables.activity = .committing)
    (h3 : s.tables.staging.firstUnlisted = some k) : exec .commitRefusal s = .next (s.refuseCommit k) := by
  simp only [exec, execCommitRefusal, whenReleased_released h1, h2, h3, if_true]

/-- The expiry of a silence timer that has run out (R49). -/
theorem exec_silenceExpiry {s : State} {m : Station} {x : Slot} (h1 : s.start.resetHeld = false) (h2 : s.silenceSlot m = some x) :
    exec (.silenceExpiry m) s = .next (s.goSilent x) := by
  simp only [exec, execSilenceExpiry, whenReleased_released h1, h2]

/-- A timer has run out exactly when it is running with no time left. -/
theorem Timer.isDue_iff {t : Timer} : t.isDue = true ↔ ∃ d, t = .running 0 d := by
  cases t with
  | stopped => simp [Timer.isDue]
  | running n d => cases n <;> simp [Timer.isDue]

/-- A timer that has run out was running. -/
theorem Timer.isRunning_of_isDue {t : Timer} (h : t.isDue = true) : t.isRunning = true := by
  obtain ⟨d, rfl⟩ := Timer.isDue_iff.1 h; rfl

/-- The slot whose silence timer expires (R46, R49). -/
theorem silenceSlot_eq_some {s : State} {m : Station} {x : Slot} :
    s.silenceSlot m = some x ↔
      s.start.part = .running ∧ s.tables.active.slot? m = some x ∧ x.timer.isDue = true ∧ x.state ≠ .silent := by
  unfold State.silenceSlot State.isRunning
  by_cases h : s.start.part = .running
  · cases h2 : s.tables.active.slot? m with
    | none => simp [h]
    | some y =>
      by_cases h3 : y.timer.isDue = true ∧ y.state ≠ .silent
      · simp only [h, decide_true, if_true, h3, and_self, ne_eq, not_false_eq_true, Option.some.injEq, true_and]
        constructor
        · rintro rfl; exact ⟨rfl, h3⟩
        · rintro ⟨rfl, -⟩; rfl
      · simp only [h, decide_true, if_true, h3, if_false, Option.some.injEq, true_and]
        constructor
        · intro e; cases e
        · rintro ⟨rfl, e⟩; exact absurd e h3
  · simp [h]

/-- A silence timer that is stopped or has time left does not expire (R46). -/
theorem exec_silenceExpiry_none {s : State} {m : Station} (h : s.silenceSlot m = none) :
    exec (.silenceExpiry m) s = .next s := by
  cases hr : s.start.resetHeld
  · simp only [exec, execSilenceExpiry, whenReleased_released hr, h]
  · simp only [exec, execSilenceExpiry, whenReleased_held hr]

/-- The expiry of an ack wait timer that has run out (R90). -/
theorem exec_ackWaitExpiry {s : State} (h1 : s.start.resetHeld = false) (h2 : s.emitter.ackTimer.isDue = true) :
    exec .ackWaitExpiry s = .next s.ackExpired := by
  simp only [exec, execAckWaitExpiry, whenReleased_released h1, h2, if_true]

/-- The expiry of a hail timer that has run out (R95). -/
theorem exec_hailExpiry {s : State} (h1 : s.start.resetHeld = false) (h2 : s.hailExpires = true) :
    exec .hailExpiry s = .next
      (s.withEmitter { s.emitter with hailPending := true, hailTimer := .start s.start.settings.hailInterval }) := by
  simp only [exec, execHailExpiry, whenReleased_released h1, h2, if_true]

/-- The expiry of a refill timer that has run out (R87). -/
theorem exec_refillExpiry {s : State} {c : ReportClass} (h1 : s.start.resetHeld = false) (h2 : s.refillExpires c = true) :
    exec (.refillExpiry c) s = .next (s.withEmitter (s.emitter.refilled c)) := by
  simp only [exec, execRefillExpiry, whenReleased_released h1, h2, if_true]

/-- The grant of the free transmitter to the frame of the arbiter's choice (R146). -/
theorem exec_transmitGrant {s : State} {g : Grant} (h1 : s.start.resetHeld = false) (h2 : s.ports.tSending = none)
    (h3 : s.nextGrant = some g) : exec .transmitGrant s = .next (s.grant g) := by
  simp only [exec, execTransmitGrant, whenReleased_released h1, h2, h3]

end Sys2Proof.Machine
end

