-- ==== Sys2Proof/Laws/Table.lean ====
section
/-!
SUPPORT. The two banks: which bank each update reaches, lookups after updates, and that every operation on a bank keeps its canonical
form (R4, R15): keys strictly rising, at most 512 entries, every field in its range.
-/

namespace Sys2Proof.Machine

/-! ## The bank a role names (R1, R2) -/

@[simp] theorem BankName.other_other (n : BankName) : n.other.other = n := by cases n <;> rfl

@[simp] theorem BankName.other_ne (n : BankName) : n.other ≠ n := by cases n <;> decide

/-- A bank after the bank of a letter is replaced. -/
theorem TableStore.bank_setBank (t : TableStore) (n m : BankName) (b : Bank) :
    (t.setBank n b).bank m = if m = n then b else t.bank m := by
  cases n <;> cases m <;> rfl

@[simp] theorem TableStore.setBank_mark (t : TableStore) (n : BankName) (b : Bank) : (t.setBank n b).mark = t.mark := by
  cases n <;> rfl

@[simp] theorem TableStore.setBank_generation (t : TableStore) (n : BankName) (b : Bank) :
    (t.setBank n b).generation = t.generation := by
  cases n <;> rfl

@[simp] theorem TableStore.setBank_activity (t : TableStore) (n : BankName) (b : Bank) : (t.setBank n b).activity = t.activity := by
  cases n <;> rfl

@[simp] theorem TableStore.setActive_active (t : TableStore) (b : Bank) : (t.setActive b).active = b := by
  simp [TableStore.setActive, TableStore.active, TableStore.bank_setBank]

@[simp] theorem TableStore.setActive_staging (t : TableStore) (b : Bank) : (t.setActive b).staging = t.staging := by
  simp [TableStore.setActive, TableStore.staging, TableStore.bank_setBank]

@[simp] theorem TableStore.setActive_mark (t : TableStore) (b : Bank) : (t.setActive b).mark = t.mark := t.setBank_mark _ b

@[simp] theorem TableStore.setActive_generation (t : TableStore) (b : Bank) : (t.setActive b).generation = t.generation :=
  t.setBank_generation _ b

@[simp] theorem TableStore.setActive_activity (t : TableStore) (b : Bank) : (t.setActive b).activity = t.activity :=
  t.setBank_activity _ b

@[simp] theorem TableStore.setStaging_staging (t : TableStore) (b : Bank) : (t.setStaging b).staging = b := by
  simp [TableStore.setStaging, TableStore.staging, TableStore.bank_setBank]

@[simp] theorem TableStore.setStaging_active (t : TableStore) (b : Bank) : (t.setStaging b).active = t.active := by
  have : t.mark ≠ t.mark.other := fun h => t.mark.other_ne h.symm
  simp [TableStore.setStaging, TableStore.active, TableStore.bank_setBank, this]

@[simp] theorem TableStore.setStaging_mark (t : TableStore) (b : Bank) : (t.setStaging b).mark = t.mark := t.setBank_mark _ b

@[simp] theorem TableStore.setStaging_generation (t : TableStore) (b : Bank) : (t.setStaging b).generation = t.generation :=
  t.setBank_generation _ b

@[simp] theorem TableStore.setStaging_activity (t : TableStore) (b : Bank) : (t.setStaging b).activity = t.activity :=
  t.setBank_activity _ b

/-- Writing back what the ACTIVE bank holds changes nothing. -/
@[simp] theorem TableStore.setActive_self (t : TableStore) : t.setActive t.active = t := by
  obtain ⟨a, b, m, g, x⟩ := t; cases m <;> rfl

/-- The two banks of a store are its ACTIVE and its STAGING bank, in one order or the other. -/
theorem TableStore.banks_iff (t : TableStore) (P : Bank → Prop) : P t.bankA ∧ P t.bankB ↔ P t.active ∧ P t.staging := by
  obtain ⟨a, b, m, g, x⟩ := t
  cases m
  · exact Iff.rfl
  · exact and_comm

/-- What a commit makes of the two roles (R126, R127, R128). -/
theorem TableStore.commit_active (t : TableStore) (running : Bool) : (t.commit running).active = t.active.transferred t.staging running := by
  obtain ⟨a, b, m, g, x⟩ := t; cases m <;> rfl

theorem TableStore.commit_staging (t : TableStore) (running : Bool) : (t.commit running).staging = t.active.stopTimers := by
  obtain ⟨a, b, m, g, x⟩ := t; cases m <;> rfl

@[simp] theorem TableStore.mapBanks_active (t : TableStore) (f : Bank → Bank) : (t.mapBanks f).active = f t.active := by
  obtain ⟨a, b, m, g, x⟩ := t; cases m <;> rfl

@[simp] theorem TableStore.mapBanks_staging (t : TableStore) (f : Bank → Bank) : (t.mapBanks f).staging = f t.staging := by
  obtain ⟨a, b, m, g, x⟩ := t; cases m <;> rfl

/-! ## Lookups -/

/-- A point lookup gives an entry of the bank, with the key asked for (R18). -/
theorem Bank.entry?_some {b : Bank} {k : PointKey} {e : Entry} (h : b.entry? k = some e) : e.config.key = k ∧ e ∈ b.entries :=
  ⟨by simpa using List.find?_some h, List.mem_of_find?_eq_some h⟩

/-- A module lookup gives a slot of the bank, of the station asked for (R18). -/
theorem Bank.slot?_some {b : Bank} {m : Station} {x : Slot} (h : b.slot? m = some x) : x.station = m ∧ x ∈ b.slots :=
  ⟨by simpa using List.find?_some h, List.mem_of_find?_eq_some h⟩

/-- The slot of a module whose state and timer have been replaced; the others stay. -/
theorem Bank.slot?_setSlot (b : Bank) (m n : Station) (st : ModuleState) (t : Timer) :
    (b.setSlot m st t).slot? n = (b.slot? n).map fun x => if x.station = m then { x with state := st, timer := t } else x := by
  have hf : (fun x : Slot => { x with state := (if x.station = m then (st, t) else (x.state, x.timer)).1
                                      timer := (if x.station = m then (st, t) else (x.state, x.timer)).2 }) =
      fun x => if x.station = m then { x with state := st, timer := t } else x := by
    funext x; split <;> rfl
  simp only [Bank.slot?, Bank.setSlot, Bank.mapSlots, hf, List.find?_map]
  congr 2
  funext x
  simp only [Function.comp]
  split <;> rfl

/-- A module is listed exactly if the bank holds a slot of its station. -/
theorem Bank.lists_iff (b : Bank) (m : Station) : b.lists m = true ↔ ∃ x ∈ b.slots, x.station = m := by
  simp [Bank.lists, Bank.slot?]

/-- The next entry is one of the bank's, beyond the cursor and in scope (R18). -/
theorem Bank.nextEntry_some {b : Bank} {cursor : Option PointKey} {p : Entry → Bool} {e : Entry} (h : b.nextEntry cursor p = some e) :
    e ∈ b.entries ∧ beyond cursor e.config.key = true ∧ p e = true := by
  have := List.find?_some h
  simp only [Bool.and_eq_true] at this
  exact ⟨List.mem_of_find?_eq_some h, this⟩

/-! ## Lists in key order -/

/-- What an insertion holds: the new member, and the old members of other keys. -/
theorem mem_insertBy {α : Type} {key : α → Nat} {a : α} {l : List α} (h : Rising key l) (y : α) :
    y ∈ insertBy key a l ↔ y = a ∨ y ∈ l ∧ key y ≠ key a := by
  induction l with
  | nil => simp [insertBy]
  | cons x xs ih =>
    obtain ⟨h1, h2⟩ := List.pairwise_cons.1 h
    simp only [insertBy]
    split
    · rename_i hlt
      simp only [List.mem_cons]
      constructor
      · rintro (rfl | rfl | hy)
        · exact .inl rfl
        · exact .inr ⟨.inl rfl, by omega⟩
        · exact .inr ⟨.inr hy, by have := h1 y hy; omega⟩
      · rintro (rfl | ⟨rfl | hy, -⟩) <;> simp [*]
    · split
      · rename_i heq
        simp only [List.mem_cons]
        constructor
        · rintro (rfl | hy)
          · exact .inl rfl
          · exact .inr ⟨.inr hy, by have := h1 y hy; omega⟩
        · rintro (rfl | ⟨rfl | hy, hne⟩)
          · exact .inl rfl
          · exact absurd heq.symm hne
          · exact .inr hy
      · rename_i hne
        simp only [List.mem_cons, ih h2]
        constructor
        · rintro (rfl | rfl | ⟨hy, hk⟩)
          · exact .inr ⟨.inl rfl, fun e => hne e.symm⟩
          · exact .inl rfl
          · exact .inr ⟨.inr hy, hk⟩
        · rintro (rfl | ⟨rfl | hy, hk⟩)
          · exact .inr (.inl rfl)
          · exact .inl rfl
          · exact .inr (.inr ⟨hy, hk⟩)

/-- An insertion keeps the keys strictly rising. -/
theorem insertBy_rising {α : Type} {key : α → Nat} {a : α} {l : List α} (h : Rising key l) : Rising key (insertBy key a l) := by
  induction l with
  | nil => simp [insertBy, Rising]
  | cons x xs ih =>
    obtain ⟨h1, h2⟩ := List.pairwise_cons.1 h
    simp only [insertBy]
    split
    · rename_i hlt
      refine List.pairwise_cons.2 ⟨fun y hy => ?_, h⟩
      rcases List.mem_cons.1 hy with rfl | hy
      · exact hlt
      · have := h1 y hy; omega
    · split
      · rename_i heq
        exact List.pairwise_cons.2 ⟨fun y hy => by have := h1 y hy; omega, h2⟩
      · rename_i hlt hne
        refine List.pairwise_cons.2 ⟨fun y hy => ?_, ih h2⟩
        rcases (mem_insertBy h2 y).1 hy with rfl | ⟨hy, -⟩
        · omega
        · exact h1 y hy

/-- An insertion adds one member, unless it replaces one. -/
theorem insertBy_length {α : Type} (key : α → Nat) (a : α) (l : List α) :
    (insertBy key a l).length ≤ l.length + 1 := by
  induction l with
  | nil => simp [insertBy]
  | cons x xs ih =>
    simp only [insertBy]
    split
    · simp
    · split
      · simp
      · simpa using ih

/-- An insertion that replaces leaves the length as it is. -/
theorem insertBy_length_replace {α : Type} {key : α → Nat} {a : α} {l : List α} (h : Rising key l)
    (hx : ∃ x ∈ l, key x = key a) : (insertBy key a l).length = l.length := by
  induction l with
  | nil => simp at hx
  | cons x xs ih =>
    obtain ⟨h1, h2⟩ := List.pairwise_cons.1 h
    obtain ⟨y, hy, hk⟩ := hx
    simp only [insertBy]
    split
    · rename_i hlt
      rcases List.mem_cons.1 hy with rfl | hy
      · omega
      · have := h1 y hy; omega
    · split
      · simp
      · rename_i hne
        rcases List.mem_cons.1 hy with rfl | hy
        · exact absurd hk.symm hne
        · simp [ih h2 ⟨y, hy, hk⟩]

/-! ## The canonical form of a bank -/

/-- The empty bank is in canonical form. -/
theorem Bank.canonical_empty : Bank.empty.canonical :=
  ⟨List.Pairwise.nil, by simp [Bank.empty], List.Pairwise.nil, by simp [Bank.empty], by simp [Bank.empty]⟩

/-- Rewriting run states keeps the canonical form. -/
theorem Bank.canonical_mapRuns {b : Bank} (h : b.canonical) (f : Entry → RunState) : (b.mapRuns f).canonical := by
  obtain ⟨h1, h2, h3, h4, h5⟩ := h
  refine ⟨?_, by simpa [Bank.mapRuns] using h2, h3, ?_, h5⟩
  · simp only [Bank.mapRuns, Rising, List.pairwise_map]; exact h1
  · intro e he
    simp only [Bank.mapRuns, List.mem_map] at he
    obtain ⟨x, hx, rfl⟩ := he
    exact h4 x hx

/-- Rewriting the states and timers of slots keeps the canonical form. -/
theorem Bank.canonical_mapSlots {b : Bank} (h : b.canonical) (f : Slot → ModuleState × Timer) : (b.mapSlots f).canonical := by
  obtain ⟨h1, h2, h3, h4, h5⟩ := h
  refine ⟨h1, h2, ?_, h4, ?_⟩
  · simp only [Bank.mapSlots, Rising, List.pairwise_map]; exact h3
  · intro y hy
    simp only [Bank.mapSlots, List.mem_map] at hy
    obtain ⟨x, hx, rfl⟩ := hy
    exact h5 x hx

/-- An entry in its ranges joins a bank with room, or replaces its key's, and the canonical form is kept. -/
theorem Bank.canonical_putEntry {b : Bank} (h : b.canonical) {e : Entry} (he : e.config.inRange)
    (hr : (b.entry? e.config.key).isSome = true ∨ b.entries.length < Config.tableCapacity) : (b.putEntry e).canonical := by
  obtain ⟨h1, h2, h3, h4, h5⟩ := h
  refine ⟨insertBy_rising h1, ?_, h3, ?_, h5⟩
  · rcases hr with hr | hr
    · obtain ⟨x, hx⟩ := Option.isSome_iff_exists.1 hr
      obtain ⟨hk, hm⟩ := Bank.entry?_some hx
      have := insertBy_length_replace (a := e) h1 ⟨x, hm, by simp only [Entry.index, hk]⟩
      simpa [Bank.putEntry, this] using h2
    · have := insertBy_length Entry.index e b.entries
      simp only [Bank.putEntry]; omega
  · intro y hy
    rcases (mem_insertBy h1 y).1 hy with rfl | ⟨hy, -⟩
    · exact he
    · exact h4 y hy

/-- Removing an entry keeps the canonical form. -/
theorem Bank.canonical_dropEntry {b : Bank} (h : b.canonical) (k : PointKey) : (b.dropEntry k).canonical := by
  obtain ⟨h1, h2, h3, h4, h5⟩ := h
  exact ⟨h1.filter _, (List.length_filter_le _ _).trans h2, h3, fun e he => h4 e (List.mem_filter.1 he).1, h5⟩

/-- A slot in its ranges is listed, and the canonical form is kept. -/
theorem Bank.canonical_putSlot {b : Bank} (h : b.canonical) {x : Slot} (hx : x.inRange) : (b.putSlot x).canonical := by
  obtain ⟨h1, h2, h3, h4, h5⟩ := h
  refine ⟨h1, h2, insertBy_rising h3, h4, fun y hy => ?_⟩
  rcases (mem_insertBy h3 y).1 hy with rfl | ⟨hy, -⟩
  · exact hx
  · exact h5 y hy

/-- Unlisting a slot keeps the canonical form. -/
theorem Bank.canonical_dropSlot {b : Bank} (h : b.canonical) (m : Station) : (b.dropSlot m).canonical := by
  obtain ⟨h1, h2, h3, h4, h5⟩ := h
  exact ⟨h1, h2, h3.filter _, h4, fun x hx => h5 x (List.mem_filter.1 hx).1⟩

/-! ## What each update keeps -/

/-- Rewriting run states changes no configuration and no slot. -/
@[simp] theorem Bank.mapRuns_config (b : Bank) (f : Entry → RunState) :
    (b.mapRuns f).entries.map Entry.config = b.entries.map Entry.config := by simp [Bank.mapRuns]

@[simp] theorem Bank.mapRuns_slots (b : Bank) (f : Entry → RunState) : (b.mapRuns f).slots = b.slots := rfl

@[simp] theorem Bank.setRun_config (b : Bank) (k : PointKey) (r : RunState) :
    (b.setRun k r).entries.map Entry.config = b.entries.map Entry.config := b.mapRuns_config _

@[simp] theorem Bank.setRun_slots (b : Bank) (k : PointKey) (r : RunState) : (b.setRun k r).slots = b.slots := rfl

@[simp] theorem Bank.mapSlots_entries (b : Bank) (f : Slot → ModuleState × Timer) : (b.mapSlots f).entries = b.entries := rfl

@[simp] theorem Bank.setSlot_entries (b : Bank) (m : Station) (st : ModuleState) (t : Timer) :
    (b.setSlot m st t).entries = b.entries := rfl

/-- Rewriting states and timers lists the same modules. -/
@[simp] theorem Bank.mapSlots_lists (b : Bank) (f : Slot → ModuleState × Timer) (m : Station) :
    (b.mapSlots f).lists m = b.lists m := by
  rw [Bool.eq_iff_iff, Bank.lists_iff, Bank.lists_iff]; simp [Bank.mapSlots]

@[simp] theorem Bank.mapRuns_lists (b : Bank) (f : Entry → RunState) (m : Station) : (b.mapRuns f).lists m = b.lists m := rfl

end Sys2Proof.Machine
end

