-- ==== Sys2Proof/Laws/Evaluate.lean ====
section
/-!
SUPPORT. Evaluation: what one item can do to an entry's run state, that the run state stays within R12, and that the items of a frame
change run state alone.
-/

namespace Sys2Proof.Machine

/-! ## One item -/

/-- The debounce of a tested item keeps the relations of R12. -/
theorem debounce_consistent {r : RunState} {confirm : Nat} (hc : 1 ≤ confirm) (hv : r.verdict ≠ .faulted) (raw : RawVerdict) :
    (r.debounce confirm raw).1.consistent confirm := by
  simp only [RunState.debounce]
  split
  · exact ⟨by simp [RunState.debounceCleared], by simp [RunState.debounceCleared], by simp only [RunState.debounceCleared]; omega,
      by simp [RunState.debounceCleared]⟩
  · rename_i h
    split
    · rename_i h2
      refine ⟨?_, ?_, h2, ?_⟩
      · simp only [RunState.advanced]; split <;> simp
      · simpa using h
      · intro hf; exact absurd hf hv
    · refine ⟨by simp, by simp, by simp only; omega, ?_⟩
      cases raw <;> simp [RawVerdict.toVerdict]

/-- Evaluation of any item keeps the relations of R12, whatever the run state was before. -/
theorem evaluateItem_consistent (e : Entry) (i : Item) (hc : 1 ≤ e.config.confirm) :
    (evaluateItem e i).1.consistent e.config.confirm := by
  simp only [evaluateItem]
  split
  · refine debounce_consistent hc ?_ _
    simp only [RunState.recorded, RunState.leaveFault]
    split
    · simp [RunState.cleared]
    · assumption
  · simp only [evaluateFault]
    split
    · exact ⟨by simp [RunState.debounceCleared], by simp [RunState.debounceCleared], by simp only [RunState.debounceCleared]; omega,
        by simp [RunState.debounceCleared]⟩
    · exact ⟨by simp [RunState.debounceCleared], by simp [RunState.debounceCleared], by simp only [RunState.debounceCleared]; omega,
        by simp [RunState.debounceCleared]⟩

/-- A report of a transition is of the entry's class and key, and of one of the three kinds of evaluation (R37). -/
theorem transitionClaim_some {e : Entry} {v : Word} {cycle : Option Word} {t : Transition} {c : Claim}
    (h : transitionClaim e v cycle t = some c) :
    c.report.cls = e.config.cls ∧ c.report.key = .point e.config.key ∧ c.report.repeatCount = 1 ∧ c.report.lostBefore = 0 ∧
      c.report.urgent = false ∧ (c.report.kind = .change ∨ c.report.kind = .returned ∨ c.report.kind = .quality) := by
  simp only [transitionClaim] at h
  split at h
  · cases h; simp [qualityReport, newReport]
  · split at h
    · cases h; simp [changeReport, newReport]
    · cases h
  · cases h; simp [changeReport, newReport]
  · split at h
    · cases h; simp [returnReport, newReport]
    · cases h
  · cases h

/-! ## The items of a frame -/

/-- One item changes no configuration and no slot. -/
theorem Evaluation.item_keeps (origin : Station) (policy : UnlistedPolicy) (cycle : Option Word) (x : Evaluation) (i : Item) :
    (x.item origin policy cycle i).bank.entries.map Entry.config = x.bank.entries.map Entry.config ∧
      (x.item origin policy cycle i).bank.slots = x.bank.slots := by
  simp only [Evaluation.item]
  split
  · split <;> exact ⟨rfl, rfl⟩
  · exact ⟨Bank.setRun_config .., rfl⟩

/-- The items of a frame change no configuration and no slot (R44). -/
theorem evaluateItems_keeps (origin : Station) (policy : UnlistedPolicy) (cycle : Option Word) (b : Bank) (items : List Item) :
    (evaluateItems origin policy cycle b items).bank.entries.map Entry.config = b.entries.map Entry.config ∧
      (evaluateItems origin policy cycle b items).bank.slots = b.slots := by
  suffices h : ∀ x : Evaluation,
      (items.foldl (Evaluation.item origin policy cycle) x).bank.entries.map Entry.config = x.bank.entries.map Entry.config ∧
        (items.foldl (Evaluation.item origin policy cycle) x).bank.slots = x.bank.slots from h ⟨b, [], []⟩
  induction items with
  | nil => intro x; exact ⟨rfl, rfl⟩
  | cons i rest ih =>
    intro x
    obtain ⟨h1, h2⟩ := ih (x.item origin policy cycle i)
    obtain ⟨h3, h4⟩ := x.item_keeps origin policy cycle i
    exact ⟨h1.trans h3, h2.trans h4⟩

/-- Whatever holds of the bank at the start, of every rewritten run state, and is kept by an item, holds after the frame. -/
theorem evaluateItems_induction {P : Evaluation → Prop} {origin : Station} {policy : UnlistedPolicy} {cycle : Option Word} {b : Bank}
    {items : List Item} (h0 : P ⟨b, [], []⟩) (h : ∀ x i, P x → P (x.item origin policy cycle i)) :
    P (evaluateItems origin policy cycle b items) := by
  suffices hx : ∀ x, P x → P (items.foldl (Evaluation.item origin policy cycle) x) from hx _ h0
  induction items with
  | nil => intro x hx; exact hx
  | cons i rest ih => intro x hx; exact ih _ (h x i hx)

/-- The claims and the kept items of a frame are those of its items, in frame order: what was there before stays in front. -/
theorem foldl_item (origin : Station) (policy : UnlistedPolicy) (cycle : Option Word) (items : List Item) (x : Evaluation) :
    items.foldl (Evaluation.item origin policy cycle) x =
      ⟨(evaluateItems origin policy cycle x.bank items).bank, x.claims ++ (evaluateItems origin policy cycle x.bank items).claims,
        x.kept ++ (evaluateItems origin policy cycle x.bank items).kept⟩ := by
  simp only [evaluateItems]
  induction items generalizing x with
  | nil => simp
  | cons i rest ih =>
    have h1 : x.item origin policy cycle i =
        ⟨(Evaluation.item origin policy cycle ⟨x.bank, [], []⟩ i).bank,
          x.claims ++ (Evaluation.item origin policy cycle ⟨x.bank, [], []⟩ i).claims,
          x.kept ++ (Evaluation.item origin policy cycle ⟨x.bank, [], []⟩ i).kept⟩ := by
      simp only [Evaluation.item]
      cases x.bank.entry? ⟨origin, i.point⟩ with
      | none => simp only; split <;> simp
      | some e => simp only; split <;> simp
    simp only [List.foldl_cons]
    rw [ih, ih (Evaluation.item origin policy cycle ⟨x.bank, [], []⟩ i), h1]
    simp

/-- The evaluation of a frame changes no configuration and no slot of the ACTIVE bank. -/
theorem evaluateFrame_keeps (s : State) (origin : Station) (items : List Item) :
    (s.evaluateFrame origin items).bank.entries.map Entry.config = s.tables.active.entries.map Entry.config ∧
      (s.evaluateFrame origin items).bank.slots = s.tables.active.slots := by
  simp only [State.evaluateFrame]
  split
  · split
    · exact evaluateItems_keeps ..
    · cases s.start.settings.modulePolicy <;> exact ⟨rfl, rfl⟩
  · exact ⟨rfl, rfl⟩

/-- The slot that a frame hears (R47). -/
theorem heard_some {s : State} {origin : Station} {x : Slot} (h : s.heard origin = some x) :
    s.start.part = .running ∧ s.tables.active.slot? origin = some x := by
  simp only [State.heard] at h
  split at h
  · rename_i hr; exact ⟨by simpa [State.isRunning] using hr, h⟩
  · cases h

end Sys2Proof.Machine
end

