-- ==== Sys2Proof/Laws/Operands.lean ====
section
/-!
SUPPORT. What the readers of Section 11 answer: numbers of two bytes, the small fields, an image record that is answered whole,
and what the layouts write, read back byte by byte.
-/

namespace Sys2Proof.Machine

/-! ## Numbers -/

/-- A number of two bytes, high byte first (R184). -/
theorem word_toNat (h l : Byte) : (word h l).toNat = h.toNat * 256 + l.toNat := by
  simp only [word, BitVec.toNat_append]
  rw [← Nat.shiftLeft_add_eq_or_of_lt l.isLt, Nat.shiftLeft_eq]

/-- The two bytes of a word are read back as the word. -/
theorem word_bytes (w : Word) : word (w.extractLsb' 8 8) (w.extractLsb' 0 8) = w := by
  apply BitVec.eq_of_getElem_eq
  intro i hi
  rw [word, BitVec.getElem_append, ← BitVec.getLsbD_eq_getElem]
  split
  · simp
  · rename_i h
    simp [show 8 + (i - 8) = i by omega]

/-- A number below 256 written as a byte. -/
theorem byteOf_toNat {n : Nat} (h : n < 256) : (byteOf n).toNat = n := by simp [byteOf]; omega

/-- A number below 65536 written as two bytes. -/
theorem twoBytes_eq {n : Nat} (h : n < 65536) : ∃ hi lo : Byte, twoBytes n = [hi, lo] ∧ (word hi lo).toNat = n := by
  refine ⟨_, _, rfl, ?_⟩
  rw [word_bytes]; simp; omega

/-! ## Small fields -/

@[simp] theorem readStation_byteOf {m : Station} (h : 1 ≤ m.val) : readStation (byteOf m.val) = some m := by
  have := byteOf_toNat (n := m.val) (by omega)
  simp only [readStation, this]
  rw [dif_pos (by omega)]

@[simp] theorem readPoint_byteOf (p : Fin 32) : readPoint (byteOf p.val) = some p := by
  have := byteOf_toNat (n := p.val) (by omega)
  simp only [readPoint, this]
  rw [dif_pos (by omega)]

@[simp] theorem readClass_byteOf (c : ReportClass) : readClass (byteOf c.val) = some c := by
  have := byteOf_toNat (n := c.val) (by omega)
  simp only [readClass, this]
  rw [dif_pos (by omega)]

@[simp] theorem readQuality_code (q : Quality) : readQuality q.code = some q := by cases q <;> rfl

@[simp] theorem readForwardPolicy_code (p : ForwardPolicy) : readForwardPolicy p.code = some p := by cases p <;> rfl

@[simp] theorem readFlag_boolByte (b : Bool) : readFlag (boolByte b) = some b := by cases b <;> rfl

/-- A point key that is read is of a module 1 to 63. -/
theorem readStation_pos {b : Byte} {m : Station} (h : readStation b = some m) : 1 ≤ m.val := by
  simp only [readStation] at h
  split at h
  · rename_i h1; cases h; exact h1.1
  · cases h

/-- The key a reader gives is of a module 1 to 63. -/
theorem readPointKey_pos {m p : Byte} {k : PointKey} (h : readPointKey m p = some k) : 1 ≤ k.station.val := by
  simp only [readPointKey] at h
  split at h
  · rename_i h1 _; cases h; exact readStation_pos h1
  · cases h

/-! ## Frames -/

/-- A reader of items gives as many as it is asked for. -/
theorem readItems_length {n : Nat} {l : List Byte} {items : List Item} (h : readItems n l = some items) : items.length = n := by
  induction n generalizing l items with
  | zero => cases l <;> simp [readItems] at h; simp [h]
  | succ n ih =>
    rcases l with _ | ⟨a, _ | ⟨b, _ | ⟨c, _ | ⟨d, rest⟩⟩⟩⟩ <;> simp only [readItems, reduceCtorEq] at h
    split at h
    · rename_i h3; cases h; simp [ih h3]
    · cases h

/-- A good POINT frame carries 1 to 8 items (R134). -/
theorem receive_point_items {onFPort : Bool} {bytes : List Byte} {dest src : Node} {origin : Station} {items : List Item}
    (h : receive onFPort bytes = some ⟨dest, src, .point origin items⟩) : 1 ≤ items.length ∧ items.length ≤ 8 := by
  unfold receive at h
  split at h
  · split at h
    · split at h
      · rename_i body hb
        cases h
        unfold readBody at hb
        split at hb
        · split at hb
          · rename_i o is hp
            split at hb
            · cases hb
            · cases hb
              unfold readPointPayload at hp
              split at hp
              · split at hp
                · rename_i hi
                  split at hp
                  · rename_i hn; cases hp; rw [readItems_length hi]; exact hn
                  · cases hp
                · cases hp
              · cases hp
          · cases hb
        · split at hb <;> cases hb
        · cases hb
        · cases hb
        · cases hb
        · cases hb
        · cases hb
        · cases hb
      · cases h
    · cases h
  · cases h

/-! ## Image records -/

/-- A record of the image that is answered whole: its kind, its length, then its content (R176, R188). -/
theorem readRecord_whole {kind len : Byte} {content : List Byte} (h : content.length = len.toNat) :
    readRecord (kind :: len :: content) =
      if kind.toNat < 1 ∨ 4 < kind.toNat ∨ recordLengthOk kind len.toNat content = false then .error .record
      else
        match readRecordContent kind content with
        | .ok r => .ok (r, kind :: len :: content)
        | .error e => .error e := by
  have ht : content.take len.toNat = content := by rw [← h, List.take_length]
  simp only [readRecord, ht]
  by_cases h1 : kind.toNat < 1 ∨ 4 < kind.toNat
  · rw [if_pos h1, if_pos (by omega)]
  · rw [if_neg h1, if_neg (by omega)]
    by_cases h2 : recordLengthOk kind len.toNat content = false
    · rw [if_pos h2, if_pos (.inr (.inr h2))]
    · rw [if_neg h2, if_neg (by omega), if_neg (by tauto)]
      all_goals (cases readRecordContent kind content <;> rfl)

end Sys2Proof.Machine
end

