-- ==== Sys2Proof/Laws/Ops.lean ====
section
/-!
SUPPORT. Which blocks each shared operation of Machine/Ops.lean and Machine/Emission.lean leaves alone, one lemma a block; and what the
operations with alternatives come to in each.
-/

namespace Sys2Proof.Machine

/-! ## HELD and RUNNING -/

theorem started_iff (s : State) : s.started = true ↔ s.start.part = .held ∨ s.start.part = .running := by
  simp only [State.started]; cases s.start.part <;> simp

theorem not_started_iff (s : State) : s.started = false ↔ s.start.part = .scrub ∨ s.start.part = .loading := by
  simp only [State.started]; cases s.start.part <;> simp

theorem isRunning_iff (s : State) : s.isRunning = true ↔ s.start.part = .running := by simp [State.isRunning]

/-! ## After `raise` -/

@[simp] theorem State.raise_tables (s : State) (cs : List Claim) : (s.raise cs).tables = s.tables := rfl
@[simp] theorem State.raise_emitter (s : State) (cs : List Claim) : (s.raise cs).emitter = s.emitter := rfl
@[simp] theorem State.raise_sweep (s : State) (cs : List Claim) : (s.raise cs).sweep = s.sweep := rfl
@[simp] theorem State.raise_ports (s : State) (cs : List Claim) : (s.raise cs).ports = s.ports := rfl
@[simp] theorem State.raise_mgmt (s : State) (cs : List Claim) : (s.raise cs).mgmt = s.mgmt := rfl
@[simp] theorem State.raise_start (s : State) (cs : List Claim) : (s.raise cs).start = s.start := rfl
@[simp] theorem State.raise_freeCount (s : State) (cs : List Claim) : (s.raise cs).freeCount = s.freeCount := rfl
@[simp] theorem State.raise_pending (s : State) (cs : List Claim) : (s.raise cs).pending = s.pending := rfl

/-! ## After `pushUp` -/

@[simp] theorem State.pushUp_tables (s : State) (f : UpFrame) : (s.pushUp f).tables = s.tables := rfl
@[simp] theorem State.pushUp_queue (s : State) (f : UpFrame) : (s.pushUp f).queue = s.queue := rfl
@[simp] theorem State.pushUp_emitter (s : State) (f : UpFrame) : (s.pushUp f).emitter = s.emitter := rfl
@[simp] theorem State.pushUp_sweep (s : State) (f : UpFrame) : (s.pushUp f).sweep = s.sweep := rfl
@[simp] theorem State.pushUp_mgmt (s : State) (f : UpFrame) : (s.pushUp f).mgmt = s.mgmt := rfl
@[simp] theorem State.pushUp_start (s : State) (f : UpFrame) : (s.pushUp f).start = s.start := rfl
@[simp] theorem State.pushUp_freeCount (s : State) (f : UpFrame) : (s.pushUp f).freeCount = s.freeCount := rfl
@[simp] theorem State.pushUp_pending (s : State) (f : UpFrame) : (s.pushUp f).pending = s.pending := rfl

/-! ## After `fError` -/

@[simp] theorem State.fError_tables (s : State) : s.fError.tables = s.tables := rfl
@[simp] theorem State.fError_queue (s : State) : s.fError.queue = s.queue := rfl
@[simp] theorem State.fError_emitter (s : State) : s.fError.emitter = s.emitter := rfl
@[simp] theorem State.fError_sweep (s : State) : s.fError.sweep = s.sweep := rfl
@[simp] theorem State.fError_mgmt (s : State) : s.fError.mgmt = s.mgmt := rfl
@[simp] theorem State.fError_start (s : State) : s.fError.start = s.start := rfl
@[simp] theorem State.fError_freeCount (s : State) : s.fError.freeCount = s.freeCount := rfl
@[simp] theorem State.fError_pending (s : State) : s.fError.pending = s.pending := rfl

/-! ## After `fRefuse` -/

@[simp] theorem State.fRefuse_tables (s : State) : s.fRefuse.tables = s.tables := rfl
@[simp] theorem State.fRefuse_queue (s : State) : s.fRefuse.queue = s.queue := rfl
@[simp] theorem State.fRefuse_emitter (s : State) : s.fRefuse.emitter = s.emitter := rfl
@[simp] theorem State.fRefuse_sweep (s : State) : s.fRefuse.sweep = s.sweep := rfl
@[simp] theorem State.fRefuse_mgmt (s : State) : s.fRefuse.mgmt = s.mgmt := rfl
@[simp] theorem State.fRefuse_start (s : State) : s.fRefuse.start = s.start := rfl
@[simp] theorem State.fRefuse_freeCount (s : State) : s.fRefuse.freeCount = s.freeCount := rfl
@[simp] theorem State.fRefuse_pending (s : State) : s.fRefuse.pending = s.pending := rfl

/-! ## After `tError` -/

@[simp] theorem State.tError_tables (s : State) : s.tError.tables = s.tables := rfl
@[simp] theorem State.tError_queue (s : State) : s.tError.queue = s.queue := rfl
@[simp] theorem State.tError_emitter (s : State) : s.tError.emitter = s.emitter := rfl
@[simp] theorem State.tError_sweep (s : State) : s.tError.sweep = s.sweep := rfl
@[simp] theorem State.tError_mgmt (s : State) : s.tError.mgmt = s.mgmt := rfl
@[simp] theorem State.tError_start (s : State) : s.tError.start = s.start := rfl
@[simp] theorem State.tError_freeCount (s : State) : s.tError.freeCount = s.freeCount := rfl
@[simp] theorem State.tError_pending (s : State) : s.tError.pending = s.pending := rfl

/-! ## After `tRefuse` -/

@[simp] theorem State.tRefuse_tables (s : State) : s.tRefuse.tables = s.tables := rfl
@[simp] theorem State.tRefuse_queue (s : State) : s.tRefuse.queue = s.queue := rfl
@[simp] theorem State.tRefuse_emitter (s : State) : s.tRefuse.emitter = s.emitter := rfl
@[simp] theorem State.tRefuse_sweep (s : State) : s.tRefuse.sweep = s.sweep := rfl
@[simp] theorem State.tRefuse_mgmt (s : State) : s.tRefuse.mgmt = s.mgmt := rfl
@[simp] theorem State.tRefuse_start (s : State) : s.tRefuse.start = s.start := rfl
@[simp] theorem State.tRefuse_freeCount (s : State) : s.tRefuse.freeCount = s.freeCount := rfl
@[simp] theorem State.tRefuse_pending (s : State) : s.tRefuse.pending = s.pending := rfl

/-! ## After `goDeaf` -/

@[simp] theorem State.goDeaf_tables (s : State) : s.goDeaf.tables = s.tables := rfl
@[simp] theorem State.goDeaf_queue (s : State) : s.goDeaf.queue = s.queue := rfl
@[simp] theorem State.goDeaf_sweep (s : State) : s.goDeaf.sweep = s.sweep := rfl
@[simp] theorem State.goDeaf_ports (s : State) : s.goDeaf.ports = s.ports := rfl
@[simp] theorem State.goDeaf_mgmt (s : State) : s.goDeaf.mgmt = s.mgmt := rfl
@[simp] theorem State.goDeaf_freeCount (s : State) : s.goDeaf.freeCount = s.freeCount := rfl
@[simp] theorem State.goDeaf_pending (s : State) : s.goDeaf.pending = s.pending := rfl

/-! ## After `pushResponse` -/

@[simp] theorem State.pushResponse_tables (s : State) (r : Response) : (s.pushResponse r).tables = s.tables := rfl
@[simp] theorem State.pushResponse_queue (s : State) (r : Response) : (s.pushResponse r).queue = s.queue := rfl
@[simp] theorem State.pushResponse_emitter (s : State) (r : Response) : (s.pushResponse r).emitter = s.emitter := rfl
@[simp] theorem State.pushResponse_sweep (s : State) (r : Response) : (s.pushResponse r).sweep = s.sweep := rfl
@[simp] theorem State.pushResponse_mgmt (s : State) (r : Response) : (s.pushResponse r).mgmt = s.mgmt := rfl
@[simp] theorem State.pushResponse_start (s : State) (r : Response) : (s.pushResponse r).start = s.start := rfl
@[simp] theorem State.pushResponse_freeCount (s : State) (r : Response) : (s.pushResponse r).freeCount = s.freeCount := rfl
@[simp] theorem State.pushResponse_pending (s : State) (r : Response) : (s.pushResponse r).pending = s.pending := rfl

/-! ## After `reply` -/

@[simp] theorem State.reply_tables (s : State) (q : Request) (st : Status) (r : Results) : (s.reply q st r).tables = s.tables := rfl
@[simp] theorem State.reply_queue (s : State) (q : Request) (st : Status) (r : Results) : (s.reply q st r).queue = s.queue := rfl
@[simp] theorem State.reply_emitter (s : State) (q : Request) (st : Status) (r : Results) : (s.reply q st r).emitter = s.emitter := rfl
@[simp] theorem State.reply_sweep (s : State) (q : Request) (st : Status) (r : Results) : (s.reply q st r).sweep = s.sweep := rfl
@[simp] theorem State.reply_mgmt (s : State) (q : Request) (st : Status) (r : Results) : (s.reply q st r).mgmt = s.mgmt := rfl
@[simp] theorem State.reply_start (s : State) (q : Request) (st : Status) (r : Results) : (s.reply q st r).start = s.start := rfl
@[simp] theorem State.reply_freeCount (s : State) (q : Request) (st : Status) (r : Results) : (s.reply q st r).freeCount = s.freeCount := rfl
@[simp] theorem State.reply_pending (s : State) (q : Request) (st : Status) (r : Results) : (s.reply q st r).pending = s.pending := rfl

/-! ## After `setCache` -/

@[simp] theorem State.setCache_tables (s : State) (tag : Byte) (c : CacheContent) : (s.setCache tag c).tables = s.tables := rfl
@[simp] theorem State.setCache_queue (s : State) (tag : Byte) (c : CacheContent) : (s.setCache tag c).queue = s.queue := rfl
@[simp] theorem State.setCache_emitter (s : State) (tag : Byte) (c : CacheContent) : (s.setCache tag c).emitter = s.emitter := rfl
@[simp] theorem State.setCache_sweep (s : State) (tag : Byte) (c : CacheContent) : (s.setCache tag c).sweep = s.sweep := rfl
@[simp] theorem State.setCache_ports (s : State) (tag : Byte) (c : CacheContent) : (s.setCache tag c).ports = s.ports := rfl
@[simp] theorem State.setCache_start (s : State) (tag : Byte) (c : CacheContent) : (s.setCache tag c).start = s.start := rfl
@[simp] theorem State.setCache_freeCount (s : State) (tag : Byte) (c : CacheContent) : (s.setCache tag c).freeCount = s.freeCount := rfl
@[simp] theorem State.setCache_pending (s : State) (tag : Byte) (c : CacheContent) : (s.setCache tag c).pending = s.pending := rfl

/-! ## After `setMark` -/

@[simp] theorem State.setMark_tables (s : State) (m : AlternationMark) : (s.setMark m).tables = s.tables := rfl
@[simp] theorem State.setMark_queue (s : State) (m : AlternationMark) : (s.setMark m).queue = s.queue := rfl
@[simp] theorem State.setMark_emitter (s : State) (m : AlternationMark) : (s.setMark m).emitter = s.emitter := rfl
@[simp] theorem State.setMark_sweep (s : State) (m : AlternationMark) : (s.setMark m).sweep = s.sweep := rfl
@[simp] theorem State.setMark_mgmt (s : State) (m : AlternationMark) : (s.setMark m).mgmt = s.mgmt := rfl
@[simp] theorem State.setMark_start (s : State) (m : AlternationMark) : (s.setMark m).start = s.start := rfl
@[simp] theorem State.setMark_freeCount (s : State) (m : AlternationMark) : (s.setMark m).freeCount = s.freeCount := rfl
@[simp] theorem State.setMark_pending (s : State) (m : AlternationMark) : (s.setMark m).pending = s.pending := rfl

/-! ## After `send` -/

@[simp] theorem State.send_tables (s : State) (d : Node) (k : OwnKind) (p : List Byte) (n : Option Word) : (s.send d k p n).tables = s.tables := rfl
@[simp] theorem State.send_queue (s : State) (d : Node) (k : OwnKind) (p : List Byte) (n : Option Word) : (s.send d k p n).queue = s.queue := rfl
@[simp] theorem State.send_emitter (s : State) (d : Node) (k : OwnKind) (p : List Byte) (n : Option Word) : (s.send d k p n).emitter = s.emitter := rfl
@[simp] theorem State.send_sweep (s : State) (d : Node) (k : OwnKind) (p : List Byte) (n : Option Word) : (s.send d k p n).sweep = s.sweep := rfl
@[simp] theorem State.send_mgmt (s : State) (d : Node) (k : OwnKind) (p : List Byte) (n : Option Word) : (s.send d k p n).mgmt = s.mgmt := rfl
@[simp] theorem State.send_start (s : State) (d : Node) (k : OwnKind) (p : List Byte) (n : Option Word) : (s.send d k p n).start = s.start := rfl
@[simp] theorem State.send_freeCount (s : State) (d : Node) (k : OwnKind) (p : List Byte) (n : Option Word) : (s.send d k p n).freeCount = s.freeCount := rfl
@[simp] theorem State.send_pending (s : State) (d : Node) (k : OwnKind) (p : List Byte) (n : Option Word) : (s.send d k p n).pending = s.pending := rfl

/-! ## After `emitFirst` -/

@[simp] theorem State.emitFirst_tables (s : State) (d : Node) (r : Report) (lost : Nat) : (s.emitFirst d r lost).tables = s.tables := rfl
@[simp] theorem State.emitFirst_queue (s : State) (d : Node) (r : Report) (lost : Nat) : (s.emitFirst d r lost).queue = s.queue := rfl
@[simp] theorem State.emitFirst_sweep (s : State) (d : Node) (r : Report) (lost : Nat) : (s.emitFirst d r lost).sweep = s.sweep := rfl
@[simp] theorem State.emitFirst_mgmt (s : State) (d : Node) (r : Report) (lost : Nat) : (s.emitFirst d r lost).mgmt = s.mgmt := rfl
@[simp] theorem State.emitFirst_start (s : State) (d : Node) (r : Report) (lost : Nat) : (s.emitFirst d r lost).start = s.start := rfl
@[simp] theorem State.emitFirst_freeCount (s : State) (d : Node) (r : Report) (lost : Nat) : (s.emitFirst d r lost).freeCount = s.freeCount := rfl
@[simp] theorem State.emitFirst_pending (s : State) (d : Node) (r : Report) (lost : Nat) : (s.emitFirst d r lost).pending = s.pending := rfl

/-! ## After `setLoader` -/

@[simp] theorem State.setLoader_tables (s : State) (l : Loader) : (s.setLoader l).tables = s.tables := rfl
@[simp] theorem State.setLoader_queue (s : State) (l : Loader) : (s.setLoader l).queue = s.queue := rfl
@[simp] theorem State.setLoader_emitter (s : State) (l : Loader) : (s.setLoader l).emitter = s.emitter := rfl
@[simp] theorem State.setLoader_sweep (s : State) (l : Loader) : (s.setLoader l).sweep = s.sweep := rfl
@[simp] theorem State.setLoader_ports (s : State) (l : Loader) : (s.setLoader l).ports = s.ports := rfl
@[simp] theorem State.setLoader_mgmt (s : State) (l : Loader) : (s.setLoader l).mgmt = s.mgmt := rfl
@[simp] theorem State.setLoader_freeCount (s : State) (l : Loader) : (s.setLoader l).freeCount = s.freeCount := rfl
@[simp] theorem State.setLoader_pending (s : State) (l : Loader) : (s.setLoader l).pending = s.pending := rfl

/-! ## After `loadFails` -/

@[simp] theorem State.loadFails_queue (s : State) (r : LoadFailure) : (s.loadFails r).queue = s.queue := rfl
@[simp] theorem State.loadFails_emitter (s : State) (r : LoadFailure) : (s.loadFails r).emitter = s.emitter := rfl
@[simp] theorem State.loadFails_sweep (s : State) (r : LoadFailure) : (s.loadFails r).sweep = s.sweep := rfl
@[simp] theorem State.loadFails_ports (s : State) (r : LoadFailure) : (s.loadFails r).ports = s.ports := rfl
@[simp] theorem State.loadFails_mgmt (s : State) (r : LoadFailure) : (s.loadFails r).mgmt = s.mgmt := rfl
@[simp] theorem State.loadFails_freeCount (s : State) (r : LoadFailure) : (s.loadFails r).freeCount = s.freeCount := rfl
@[simp] theorem State.loadFails_pending (s : State) (r : LoadFailure) : (s.loadFails r).pending = s.pending := rfl

/-! ## After `endDeaf` -/

@[simp] theorem State.endDeaf_tables (s : State) : s.endDeaf.tables = s.tables := by
  cases h : s.emitter.link <;> simp [State.endDeaf, h]

@[simp] theorem State.endDeaf_queue (s : State) : s.endDeaf.queue = s.queue := by
  cases h : s.emitter.link <;> simp [State.endDeaf, h]

@[simp] theorem State.endDeaf_sweep (s : State) : s.endDeaf.sweep = s.sweep := by
  cases h : s.emitter.link <;> simp [State.endDeaf, h]

@[simp] theorem State.endDeaf_ports (s : State) : s.endDeaf.ports = s.ports := by
  cases h : s.emitter.link <;> simp [State.endDeaf, h]

@[simp] theorem State.endDeaf_mgmt (s : State) : s.endDeaf.mgmt = s.mgmt := by
  cases h : s.emitter.link <;> simp [State.endDeaf, h]

@[simp] theorem State.endDeaf_freeCount (s : State) : s.endDeaf.freeCount = s.freeCount := by
  cases h : s.emitter.link <;> simp [State.endDeaf, h]

@[simp] theorem State.endDeaf_pending (s : State) : s.endDeaf.pending = s.pending := by
  cases h : s.emitter.link <;> simp [State.endDeaf, h]

/-! ## After `emitterOwnerChange` -/

@[simp] theorem State.emitterOwnerChange_tables (s : State) : s.emitterOwnerChange.tables = s.tables := by
  cases h : s.emitter.link <;> simp [State.emitterOwnerChange, h]

@[simp] theorem State.emitterOwnerChange_sweep (s : State) : s.emitterOwnerChange.sweep = s.sweep := by
  cases h : s.emitter.link <;> simp [State.emitterOwnerChange, h]

@[simp] theorem State.emitterOwnerChange_ports (s : State) : s.emitterOwnerChange.ports = s.ports := by
  cases h : s.emitter.link <;> simp [State.emitterOwnerChange, h]

@[simp] theorem State.emitterOwnerChange_mgmt (s : State) : s.emitterOwnerChange.mgmt = s.mgmt := by
  cases h : s.emitter.link <;> simp [State.emitterOwnerChange, h]

@[simp] theorem State.emitterOwnerChange_freeCount (s : State) : s.emitterOwnerChange.freeCount = s.freeCount := by
  cases h : s.emitter.link <;> simp [State.emitterOwnerChange, h]

@[simp] theorem State.emitterOwnerChange_pending (s : State) : s.emitterOwnerChange.pending = s.pending := by
  cases h : s.emitter.link <;> simp [State.emitterOwnerChange, h]

/-! ## After `changeOwner` -/

@[simp] theorem State.changeOwner_tables (s : State) (o : Option Node) : (s.changeOwner o).tables = s.tables := by
  simp [State.changeOwner]

@[simp] theorem State.changeOwner_ports (s : State) (o : Option Node) : (s.changeOwner o).ports = s.ports := by
  simp [State.changeOwner]

@[simp] theorem State.changeOwner_freeCount (s : State) (o : Option Node) : (s.changeOwner o).freeCount = s.freeCount := by
  simp [State.changeOwner]

@[simp] theorem State.changeOwner_pending (s : State) (o : Option Node) : (s.changeOwner o).pending = s.pending := by
  simp [State.changeOwner]

/-! ## After `respond` -/

@[simp] theorem State.respond_tables (s : State) (q : Request) (st : Status) (r : Results) : (s.respond q st r).tables = s.tables := by
  simp only [State.respond]; split <;> rfl

@[simp] theorem State.respond_queue (s : State) (q : Request) (st : Status) (r : Results) : (s.respond q st r).queue = s.queue := by
  simp only [State.respond]; split <;> rfl

@[simp] theorem State.respond_emitter (s : State) (q : Request) (st : Status) (r : Results) : (s.respond q st r).emitter = s.emitter := by
  simp only [State.respond]; split <;> rfl

@[simp] theorem State.respond_sweep (s : State) (q : Request) (st : Status) (r : Results) : (s.respond q st r).sweep = s.sweep := by
  simp only [State.respond]; split <;> rfl

@[simp] theorem State.respond_start (s : State) (q : Request) (st : Status) (r : Results) : (s.respond q st r).start = s.start := by
  simp only [State.respond]; split <;> rfl

@[simp] theorem State.respond_freeCount (s : State) (q : Request) (st : Status) (r : Results) : (s.respond q st r).freeCount = s.freeCount := by
  simp only [State.respond]; split <;> rfl

@[simp] theorem State.respond_pending (s : State) (q : Request) (st : Status) (r : Results) : (s.respond q st r).pending = s.pending := by
  simp only [State.respond]; split <;> rfl

/-! ## After `offerUp` -/

@[simp] theorem State.offerUp_tables (s : State) (f : UpFrame) : (s.offerUp f).tables = s.tables := by
  simp only [State.offerUp]; split <;> rfl

@[simp] theorem State.offerUp_emitter (s : State) (f : UpFrame) : (s.offerUp f).emitter = s.emitter := by
  simp only [State.offerUp]; split <;> rfl

@[simp] theorem State.offerUp_sweep (s : State) (f : UpFrame) : (s.offerUp f).sweep = s.sweep := by
  simp only [State.offerUp]; split <;> rfl

@[simp] theorem State.offerUp_mgmt (s : State) (f : UpFrame) : (s.offerUp f).mgmt = s.mgmt := by
  simp only [State.offerUp]; split <;> rfl

@[simp] theorem State.offerUp_start (s : State) (f : UpFrame) : (s.offerUp f).start = s.start := by
  simp only [State.offerUp]; split <;> rfl

@[simp] theorem State.offerUp_freeCount (s : State) (f : UpFrame) : (s.offerUp f).freeCount = s.freeCount := by
  simp only [State.offerUp]; split <;> rfl

@[simp] theorem State.offerUp_pending (s : State) (f : UpFrame) : (s.offerUp f).pending = s.pending := by
  simp only [State.offerUp]; split <;> rfl

/-! ## After `offerDown` -/

@[simp] theorem State.offerDown_tables (s : State) (bytes : List Byte) : (s.offerDown bytes).tables = s.tables := by
  simp only [State.offerDown]; split <;> (try split) <;> rfl

@[simp] theorem State.offerDown_emitter (s : State) (bytes : List Byte) : (s.offerDown bytes).emitter = s.emitter := by
  simp only [State.offerDown]; split <;> (try split) <;> rfl

@[simp] theorem State.offerDown_sweep (s : State) (bytes : List Byte) : (s.offerDown bytes).sweep = s.sweep := by
  simp only [State.offerDown]; split <;> (try split) <;> rfl

@[simp] theorem State.offerDown_mgmt (s : State) (bytes : List Byte) : (s.offerDown bytes).mgmt = s.mgmt := by
  simp only [State.offerDown]; split <;> (try split) <;> rfl

@[simp] theorem State.offerDown_start (s : State) (bytes : List Byte) : (s.offerDown bytes).start = s.start := by
  simp only [State.offerDown]; split <;> (try split) <;> rfl

@[simp] theorem State.offerDown_freeCount (s : State) (bytes : List Byte) : (s.offerDown bytes).freeCount = s.freeCount := by
  simp only [State.offerDown]; split <;> (try split) <;> rfl

@[simp] theorem State.offerDown_pending (s : State) (bytes : List Byte) : (s.offerDown bytes).pending = s.pending := by
  simp only [State.offerDown]; split <;> (try split) <;> rfl

/-! ## After `finalResponse` -/

@[simp] theorem State.finalResponse_tables (s : State) (st : Status) (r : Results) : (s.finalResponse st r).tables = s.tables := by
  simp only [State.finalResponse]; cases s.mgmt.inProgress <;> rfl

@[simp] theorem State.finalResponse_queue (s : State) (st : Status) (r : Results) : (s.finalResponse st r).queue = s.queue := by
  simp only [State.finalResponse]; cases s.mgmt.inProgress <;> rfl

@[simp] theorem State.finalResponse_emitter (s : State) (st : Status) (r : Results) : (s.finalResponse st r).emitter = s.emitter := by
  simp only [State.finalResponse]; cases s.mgmt.inProgress <;> rfl

@[simp] theorem State.finalResponse_sweep (s : State) (st : Status) (r : Results) : (s.finalResponse st r).sweep = s.sweep := by
  simp only [State.finalResponse]; cases s.mgmt.inProgress <;> rfl

@[simp] theorem State.finalResponse_start (s : State) (st : Status) (r : Results) : (s.finalResponse st r).start = s.start := by
  simp only [State.finalResponse]; cases s.mgmt.inProgress <;> rfl

@[simp] theorem State.finalResponse_freeCount (s : State) (st : Status) (r : Results) : (s.finalResponse st r).freeCount = s.freeCount := by
  simp only [State.finalResponse]; cases s.mgmt.inProgress <;> rfl

@[simp] theorem State.finalResponse_pending (s : State) (st : Status) (r : Results) : (s.finalResponse st r).pending = s.pending := by
  simp only [State.finalResponse]; cases s.mgmt.inProgress <;> rfl

/-! ## After `noticeRestart` -/

@[simp] theorem State.noticeRestart_tables (s : State) : s.noticeRestart.tables = s.tables := by
  simp only [State.noticeRestart]; split <;> rfl

@[simp] theorem State.noticeRestart_emitter (s : State) : s.noticeRestart.emitter = s.emitter := by
  simp only [State.noticeRestart]; split <;> rfl

@[simp] theorem State.noticeRestart_sweep (s : State) : s.noticeRestart.sweep = s.sweep := by
  simp only [State.noticeRestart]; split <;> rfl

@[simp] theorem State.noticeRestart_ports (s : State) : s.noticeRestart.ports = s.ports := by
  simp only [State.noticeRestart]; split <;> rfl

@[simp] theorem State.noticeRestart_mgmt (s : State) : s.noticeRestart.mgmt = s.mgmt := by
  simp only [State.noticeRestart]; split <;> rfl

@[simp] theorem State.noticeRestart_freeCount (s : State) : s.noticeRestart.freeCount = s.freeCount := by
  simp only [State.noticeRestart]; split <;> rfl

@[simp] theorem State.noticeRestart_pending (s : State) : s.noticeRestart.pending = s.pending := by
  simp only [State.noticeRestart]; split <;> rfl

/-! ## After `takeMark` -/

@[simp] theorem State.takeMark_tables (s : State) (n : Word) : (s.takeMark n).tables = s.tables := by
  simp only [State.takeMark]; cases s.start.part <;> rfl

@[simp] theorem State.takeMark_queue (s : State) (n : Word) : (s.takeMark n).queue = s.queue := by
  simp only [State.takeMark]; cases s.start.part <;> rfl

@[simp] theorem State.takeMark_emitter (s : State) (n : Word) : (s.takeMark n).emitter = s.emitter := by
  simp only [State.takeMark]; cases s.start.part <;> rfl

@[simp] theorem State.takeMark_ports (s : State) (n : Word) : (s.takeMark n).ports = s.ports := by
  simp only [State.takeMark]; cases s.start.part <;> rfl

@[simp] theorem State.takeMark_mgmt (s : State) (n : Word) : (s.takeMark n).mgmt = s.mgmt := by
  simp only [State.takeMark]; cases s.start.part <;> rfl

@[simp] theorem State.takeMark_start (s : State) (n : Word) : (s.takeMark n).start = s.start := by
  simp only [State.takeMark]; cases s.start.part <;> rfl

@[simp] theorem State.takeMark_freeCount (s : State) (n : Word) : (s.takeMark n).freeCount = s.freeCount := by
  simp only [State.takeMark]; cases s.start.part <;> rfl

@[simp] theorem State.takeMark_pending (s : State) (n : Word) : (s.takeMark n).pending = s.pending := by
  simp only [State.takeMark]; cases s.start.part <;> rfl

/-! ## After `emit` -/

@[simp] theorem State.emit_tables (s : State) (d : Node) (c : Choice) : (s.emit d c).tables = s.tables := by
  cases c <;> rfl

@[simp] theorem State.emit_mgmt (s : State) (d : Node) (c : Choice) : (s.emit d c).mgmt = s.mgmt := by
  cases c <;> rfl

@[simp] theorem State.emit_start (s : State) (d : Node) (c : Choice) : (s.emit d c).start = s.start := by
  cases c <;> rfl

@[simp] theorem State.emit_freeCount (s : State) (d : Node) (c : Choice) : (s.emit d c).freeCount = s.freeCount := by
  cases c <;> rfl

@[simp] theorem State.emit_pending (s : State) (d : Node) (c : Choice) : (s.emit d c).pending = s.pending := by
  cases c <;> rfl

/-! ## After `sendUp` -/

@[simp] theorem State.sendUp_tables (s : State) (f : UpFrame) : (s.sendUp f).tables = s.tables := by
  cases f <;> rfl

@[simp] theorem State.sendUp_queue (s : State) (f : UpFrame) : (s.sendUp f).queue = s.queue := by
  cases f <;> rfl

@[simp] theorem State.sendUp_emitter (s : State) (f : UpFrame) : (s.sendUp f).emitter = s.emitter := by
  cases f <;> rfl

@[simp] theorem State.sendUp_sweep (s : State) (f : UpFrame) : (s.sendUp f).sweep = s.sweep := by
  cases f <;> rfl

@[simp] theorem State.sendUp_mgmt (s : State) (f : UpFrame) : (s.sendUp f).mgmt = s.mgmt := by
  cases f <;> rfl

@[simp] theorem State.sendUp_start (s : State) (f : UpFrame) : (s.sendUp f).start = s.start := by
  cases f <;> rfl

@[simp] theorem State.sendUp_freeCount (s : State) (f : UpFrame) : (s.sendUp f).freeCount = s.freeCount := by
  cases f <;> rfl

@[simp] theorem State.sendUp_pending (s : State) (f : UpFrame) : (s.sendUp f).pending = s.pending := by
  cases f <;> rfl

/-! ## After `grant` -/

@[simp] theorem State.grant_tables (s : State) (g : Grant) : (s.grant g).tables = s.tables := by
  cases g <;> simp only [State.grant] <;> (try split) <;> simp

@[simp] theorem State.grant_mgmt (s : State) (g : Grant) : (s.grant g).mgmt = s.mgmt := by
  cases g <;> simp only [State.grant] <;> (try split) <;> simp

@[simp] theorem State.grant_start (s : State) (g : Grant) : (s.grant g).start = s.start := by
  cases g <;> simp only [State.grant] <;> (try split) <;> simp

@[simp] theorem State.grant_freeCount (s : State) (g : Grant) : (s.grant g).freeCount = s.freeCount := by
  cases g <;> simp only [State.grant] <;> (try split) <;> simp

@[simp] theorem State.grant_pending (s : State) (g : Grant) : (s.grant g).pending = s.pending := by
  cases g <;> simp only [State.grant] <;> (try split) <;> simp

/-! ## After `forward` -/

@[simp] theorem State.forward_tables (s : State) (m : Station) (items : List Item) : (s.forward m items).tables = s.tables := by
  simp only [State.forward]; split <;> rfl

@[simp] theorem State.forward_queue (s : State) (m : Station) (items : List Item) : (s.forward m items).queue = s.queue := by
  simp only [State.forward]; split <;> rfl

@[simp] theorem State.forward_emitter (s : State) (m : Station) (items : List Item) : (s.forward m items).emitter = s.emitter := by
  simp only [State.forward]; split <;> rfl

@[simp] theorem State.forward_sweep (s : State) (m : Station) (items : List Item) : (s.forward m items).sweep = s.sweep := by
  simp only [State.forward]; split <;> rfl

@[simp] theorem State.forward_mgmt (s : State) (m : Station) (items : List Item) : (s.forward m items).mgmt = s.mgmt := by
  simp only [State.forward]; split <;> rfl

@[simp] theorem State.forward_start (s : State) (m : Station) (items : List Item) : (s.forward m items).start = s.start := by
  simp only [State.forward]; split <;> rfl

@[simp] theorem State.forward_freeCount (s : State) (m : Station) (items : List Item) : (s.forward m items).freeCount = s.freeCount := by
  simp only [State.forward]; split <;> rfl

@[simp] theorem State.forward_pending (s : State) (m : Station) (items : List Item) : (s.forward m items).pending = s.pending := by
  simp only [State.forward]; split <;> rfl

/-! ## Their alternatives -/

/-- With the link NORMAL there is no DEAF to end. -/
theorem endDeaf_normal {s : State} (h : s.emitter.link = .normal) : s.endDeaf = s := by simp only [State.endDeaf, h]

/-- The end of DEAF (R96). -/
theorem endDeaf_deaf {s : State} (h : s.emitter.link = .deaf) :
    s.endDeaf =
      { s with
        emitter :=
          { s.emitter with
            link := .normal, hailTimer := .stopped, hailPending := false
            outstanding := s.emitter.outstanding.map fun o => { o with retry := 0, transmit := .flagged } }
        start := { s.start with alert := s.start.startAlert } } := by
  simp only [State.endDeaf, h]; rfl

/-- After a request of the owner has been taken the link is NORMAL (R96). -/
@[simp] theorem endDeaf_link (s : State) : s.endDeaf.emitter.link = .normal := by
  cases h : s.emitter.link
  · rw [endDeaf_normal h, h]
  · rw [endDeaf_deaf h]

/-- The end of DEAF keeps every record in its place, under its number. -/
@[simp] theorem endDeaf_numbers (s : State) :
    s.endDeaf.emitter.outstanding.map Outstanding.number = s.emitter.outstanding.map Outstanding.number := by
  cases h : s.emitter.link
  · rw [endDeaf_normal h]
  · rw [endDeaf_deaf h]; simp

@[simp] theorem changeOwner_owner (s : State) (o : Option Node) : (s.changeOwner o).mgmt.owner = o := rfl

@[simp] theorem changeOwner_cache (s : State) (o : Option Node) : (s.changeOwner o).mgmt.cache = none := rfl

@[simp] theorem changeOwner_outstanding (s : State) (o : Option Node) : (s.changeOwner o).emitter.outstanding = [] := by
  cases h : s.emitter.link <;> simp [State.changeOwner, State.emitterOwnerChange, h]

@[simp] theorem changeOwner_link (s : State) (o : Option Node) : (s.changeOwner o).emitter.link = .normal := by
  cases h : s.emitter.link <;> simp [State.changeOwner, State.emitterOwnerChange, h, Emitter.linkNormal]

@[simp] theorem changeOwner_part (s : State) (o : Option Node) : (s.changeOwner o).start.part = s.start.part := by
  cases h : s.emitter.link <;> simp [State.changeOwner, State.emitterOwnerChange, h, StartController.dropAlert]

/-- A frame offered to the Down FIFO (R144): it joins, or it is discarded with a DOWNLINK-FULL in HELD and RUNNING. -/
theorem offerDown_cases (s : State) (bytes : List Byte) :
    s.ports.down.length < 8 ∧ s.offerDown bytes = s.withPorts { s.ports with down := s.ports.down ++ [bytes] } ∨
    8 ≤ s.ports.down.length ∧
      (s.started = true ∧ s.offerDown bytes = s.raise [s.headClaim .downlinkFull] ∨ s.started = false ∧ s.offerDown bytes = s) := by
  simp only [State.offerDown]
  split
  · rename_i h; exact .inl ⟨h, rfl⟩
  · rename_i h
    refine .inr ⟨not_lt.1 h, ?_⟩
    split
    · rename_i h2; exact .inl ⟨h2, rfl⟩
    · rename_i h2; exact .inr ⟨by simpa using h2, rfl⟩

/-- A frame offered to the Up FIFO (R143): it joins, or it is discarded with an UPLINK-FULL in HELD and RUNNING. -/
theorem offerUp_cases (s : State) (f : UpFrame) :
    s.ports.up.length < 8 ∧ s.offerUp f = s.pushUp f ∨ 8 ≤ s.ports.up.length ∧ s.offerUp f = s.raise s.uplinkClaims := by
  by_cases h : s.ports.up.length < 8
  · have : s.upRoom = true := decide_eq_true h
    exact .inl ⟨h, by simp only [State.offerUp, this, if_true]⟩
  · have : s.upRoom = false := decide_eq_false h
    exact .inr ⟨not_lt.1 h, by simp only [State.offerUp, this, Bool.false_eq_true, if_false]⟩

/-- No claim leaves the state as it is; one is added to the queue (R63). -/
@[simp] theorem raise_nil (s : State) : s.raise [] = s := rfl

@[simp] theorem addAll_nil (q : ReportQueue) (classes : PerClass ClassSetting) : q.addAll classes [] = q := rfl

@[simp] theorem addAll_cons (q : ReportQueue) (classes : PerClass ClassSetting) (c : Claim) (cs : List Claim) :
    q.addAll classes (c :: cs) = (q.add classes c).addAll classes cs := rfl

@[simp] theorem addAll_append (q : ReportQueue) (classes : PerClass ClassSetting) (cs ds : List Claim) :
    q.addAll classes (cs ++ ds) = (q.addAll classes cs).addAll classes ds := by simp [ReportQueue.addAll]

@[simp] theorem raise_queue (s : State) (cs : List Claim) : (s.raise cs).queue = s.queue.addAll s.emitter.classes cs := rfl

@[simp] theorem upRoom_withTables (s : State) (t : TableStore) : (s.withTables t).upRoom = s.upRoom := rfl

/-- What a POINT frame taken for the head can change: the ACTIVE bank, the queue, the Up FIFO and the model's index of free values
(R22, R44). -/
theorem takePoint_eq (s : State) (origin : Station) (items : List Item) :
    ∃ q up n,
      s.takePoint origin items =
        { s with
          tables := s.tables.setActive (s.bankAfterFrame origin items), queue := q, ports := { s.ports with up := up }, freeCount := n } := by
  simp only [State.takePoint, State.forward]
  split <;> split <;> exact ⟨_, _, _, rfl⟩

/-- The final response of the operation in progress (R164). -/
theorem finalResponse_some {s : State} {p : InProgress} (h : s.mgmt.inProgress = some p) (st : Status) (r : Results) :
    s.finalResponse st r =
      (s.pushResponse ⟨p.source, p.tag, p.operation.code, st, r, true⟩).withMgmt
        { s.mgmt with
          cache := cacheAfterFinal s.mgmt.cache p.tag ⟨p.source, p.tag, p.operation.code, st, r, true⟩, inProgress := none } := by
  simp only [State.finalResponse, h]

/-- A report frame is granted only to the owner, with the link NORMAL, in HELD and RUNNING (R81). -/
theorem reportOffer_some {s : State} {owner : Node} {c : Choice} (h : s.reportOffer = some (owner, c)) :
    s.mgmt.owner = some owner ∧ s.emitter.link = .normal ∧ s.started = true ∧ s.choice = some c := by
  simp only [State.reportOffer, State.listener] at h
  split at h
  · rename_i h1 h2
    split at h1
    · rename_i h3; cases h; exact ⟨h1, h3.1, h3.2, h2⟩
    · cases h1
  · cases h

/-- What the arbiter's choice can be, and what stands behind each (R146). -/
theorem nextGrant_cases {s : State} {g : Grant} (h : s.nextGrant = some g) :
    (∃ r rest, s.ports.responses = r :: rest ∧ g = .response r) ∨
    s.ports.responses = [] ∧
      ((∃ owner c, s.reportOffer = some (owner, c) ∧ g = .report owner c) ∨ (∃ f rest, s.ports.up = f :: rest ∧ g = .up f) ∨
        s.ports.up = [] ∧ s.hailOffer = some g) := by
  have up : ∀ g, s.upOrHail = some g → (∃ f rest, s.ports.up = f :: rest ∧ g = .up f) ∨ s.ports.up = [] ∧ s.hailOffer = some g := by
    intro g h
    simp only [State.upOrHail] at h
    split at h
    · rename_i f rest hu; cases h; exact .inl ⟨f, rest, hu, rfl⟩
    · rename_i hu; exact .inr ⟨hu, h⟩
  simp only [State.nextGrant] at h
  split at h
  · rename_i r rest hr; cases h; exact .inl ⟨r, rest, hr, rfl⟩
  · rename_i hr
    refine .inr ⟨hr, ?_⟩
    split at h
    · rename_i owner c ho
      split at h
      · exact .inr (up g h)
      · cases h; exact .inl ⟨owner, c, ho, rfl⟩
    · exact .inr (up g h)

/-- A HAIL is offered only while DEAF, with an owner and an outstanding record (R95). -/
theorem hailOffer_some {s : State} {g : Grant} (h : s.hailOffer = some g) :
    s.emitter.hailPending = true ∧ s.emitter.link = .deaf ∧
      ∃ owner o rest, s.mgmt.owner = some owner ∧ s.emitter.outstanding = o :: rest ∧ g = .hail owner o.number := by
  simp only [State.hailOffer] at h
  split at h
  · rename_i h1
    split at h
    · rename_i owner o rest h2 h3; cases h; exact ⟨h1.1, h1.2, owner, o, rest, h2, h3, rfl⟩
    · cases h
  · cases h

end Sys2Proof.Machine
end

