-- ==== Sys2Proof/Laws/Queue.lean ====
section
/-!
SUPPORT. The Report Queue: which class is worst, what adding a report can do, and what the return after an owner change is made of.
-/

namespace Sys2Proof.Machine

/-! ## The best of a list -/

/-- One step of a search for the best member: a later one replaces it only if it is better. -/
def better (r : ReportClass → ReportClass → Bool) (best : Option ReportClass) (c : ReportClass) : Option ReportClass :=
  match best with
  | none => some c
  | some b => if r c b then some c else some b

/-- The search from a first candidate finds one of the candidates, better than every other. -/
theorem foldl_better {r : ReportClass → ReportClass → Bool} (trans : ∀ a b c, r a b = true → r b c = true → r a c = true)
    (total : ∀ a b, a ≠ b → r a b = true ∨ r b a = true) (l : List ReportClass) :
    ∀ b, ∃ w, l.foldl (better r) (some b) = some w ∧ w ∈ b :: l ∧ ∀ d ∈ b :: l, d ≠ w → r w d = true := by
  induction l with
  | nil => intro b; exact ⟨b, rfl, by simp, by simp⟩
  | cons c l ih =>
    intro b
    simp only [List.foldl_cons, better]
    split
    · rename_i hr
      obtain ⟨w, h1, h2, h3⟩ := ih c
      refine ⟨w, h1, List.mem_cons_of_mem _ h2, fun d hd hne => ?_⟩
      rcases List.mem_cons.1 hd with rfl | hd
      · by_cases hcw : c = w
        · subst hcw; exact hr
        · exact trans _ _ _ (h3 c (by simp) hcw) hr
      · exact h3 d hd hne
    · rename_i hr
      obtain ⟨w, h1, h2, h3⟩ := ih b
      refine ⟨w, h1, ?_, fun d hd hne => ?_⟩
      · rcases List.mem_cons.1 h2 with rfl | h2 <;> simp [*]
      rcases List.mem_cons.1 hd with rfl | hd
      · exact h3 _ (by simp) hne
      rcases List.mem_cons.1 hd with rfl | hd
      · by_cases hbw : b = w
        · subst hbw
          exact (total d b hne).resolve_left hr |> fun h => h
        · by_cases hdb : d = b
          · subst hdb; exact h3 _ (by simp) hne
          · exact trans _ _ _ (h3 b (by simp) hbw) ((total d b hdb).resolve_left hr)
      · exact h3 d (by simp [hd]) hne

/-- The search over a list finds a member exactly if it is better than every other. -/
theorem foldl_better_iff {r : ReportClass → ReportClass → Bool} (trans : ∀ a b c, r a b = true → r b c = true → r a c = true)
    (asymm : ∀ a b, r a b = true → r b a = false) (total : ∀ a b, a ≠ b → r a b = true ∨ r b a = true) (l : List ReportClass)
    (w : ReportClass) : l.foldl (better r) none = some w ↔ w ∈ l ∧ ∀ d ∈ l, d ≠ w → r w d = true := by
  cases l with
  | nil => simp
  | cons c l =>
    obtain ⟨v, h1, h2, h3⟩ := foldl_better trans total l c
    have e : (c :: l).foldl (better r) none = some v := h1
    rw [e, Option.some.injEq]
    constructor
    · rintro rfl; exact ⟨h2, h3⟩
    · rintro ⟨h4, h5⟩
      by_contra hne
      have h6 := asymm _ _ (h5 v h2 hne)
      rw [h3 w h4 (Ne.symm hne)] at h6
      cases h6

/-! ## The worst class (R68) -/

theorem worse_iff (classes : PerClass ClassSetting) (c d : ReportClass) :
    worse classes c d = true ↔
      (classes.get d).rank < (classes.get c).rank ∨ (classes.get c).rank = (classes.get d).rank ∧ d < c := by
  simp [worse]

/-- The worst class list that is not empty (R68). -/
theorem worst_iff (q : ReportQueue) (classes : PerClass ClassSetting) (w : ReportClass) :
    q.worst classes = some w ↔
      q.lists.get w ≠ [] ∧ ∀ d, q.lists.get d ≠ [] → d ≠ w → worse classes w d = true := by
  have e : q.worst classes = (allClasses.filter fun c => !(q.lists.get c).isEmpty).foldl (better (worse classes)) none := rfl
  rw [e, foldl_better_iff]
  · simp [mem_allClasses]
  · intro a b c h1 h2
    simp only [worse_iff, Fin.lt_def, Fin.ext_iff] at *; omega
  · intro a b h
    rw [Bool.eq_false_iff]; intro h'
    simp only [worse_iff, Fin.lt_def, Fin.ext_iff] at *; omega
  · intro a b h
    simp only [ne_eq, worse_iff, Fin.lt_def, Fin.ext_iff] at *; omega

/-- With every class list empty there is no worst class. -/
theorem worst_none {q : ReportQueue} {classes : PerClass ClassSetting} (h : q.worst classes = none) (c : ReportClass) :
    q.lists.get c = [] := by
  by_contra hc
  have hm : c ∈ allClasses.filter fun c => !(q.lists.get c).isEmpty := by simp [mem_allClasses, hc]
  have e : q.worst classes = (allClasses.filter fun c => !(q.lists.get c).isEmpty).foldl (better (worse classes)) none := rfl
  cases hl : allClasses.filter fun c => !(q.lists.get c).isEmpty with
  | nil => rw [hl] at hm; cases hm
  | cons b l =>
    obtain ⟨w, h1, -⟩ := foldl_better (r := worse classes)
      (fun a b c h1 h2 => by simp only [worse_iff, Fin.lt_def, Fin.ext_iff] at *; omega)
      (fun a b h => by simp only [ne_eq, worse_iff, Fin.lt_def, Fin.ext_iff] at *; omega) l b
    rw [e, hl] at h
    exact absurd (h1.symm.trans h) (by simp)

/-! ## Matching (R64) -/

theorem matches_iff (r x : Report) : r.matches x = true ↔ x.key = r.key ∧ x.kind = r.kind := by simp [Report.matches]

theorem matches_comm (r x : Report) : r.matches x = x.matches r := by
  simp only [Report.matches, eq_comm]

theorem holds_iff (q : ReportQueue) (r : Report) : q.holds r = true ↔ ∃ x ∈ q.unsent, x.key = r.key ∧ x.kind = r.kind := by
  simp [ReportQueue.holds, matches_iff]

theorem mem_unsent (q : ReportQueue) (r : Report) : r ∈ q.unsent ↔ r ∈ q.urgent ∨ ∃ c, r ∈ q.lists.get c := by
  simp only [ReportQueue.unsent, List.mem_append, List.mem_flatten, PerClass.mem_toList]
  constructor
  · rintro (h | ⟨l, ⟨c, rfl⟩, h⟩)
    · exact .inl h
    · exact .inr ⟨c, h⟩
  · rintro (h | ⟨c, h⟩)
    · exact .inl h
    · exact .inr ⟨_, ⟨c, rfl⟩, h⟩

/-- The number of records in the class lists (R60). -/
theorem pooled_eq (q : ReportQueue) : q.pooled = ((allClasses.map fun c => (q.lists.get c).length).sum) := rfl

/-! ## Adding a report (R64 to R68) -/

/-- What adding a report can do, all of it: coalescing, urgent placement, joining a class list with room, eviction of the worst class's
oldest record, or a discard counted as lost. -/
theorem add_cases (q : ReportQueue) (classes : PerClass ClassSetting) (c : Claim) :
    q.holds c.report = true ∧ q.add classes c = q.coalesce c.report ∨
    q.holds c.report = false ∧
      (c.urgent = true ∧ q.urgent.length < 4 ∧
          q.add classes c = { q with urgent := q.urgent ++ [{ c.report with urgent := true }] } ∨
        q.pooled < 256 ∧ (∃ front, q.add classes c = q.join c.report front) ∨
        256 ≤ q.pooled ∧
          ((∃ w front, q.worst classes = some w ∧ worse classes w c.report.cls = true ∧
              q.add classes c = (q.evict w).join c.report front) ∨
            q.add classes c = q.countLost c.report.cls)) := by
  cases hh : q.holds c.report
  · refine .inr ⟨rfl, ?_⟩
    have place : ∀ front,
        q.pooled < 256 ∧ (∃ f, q.place classes c.report front = q.join c.report f) ∨
        256 ≤ q.pooled ∧
          ((∃ w f, q.worst classes = some w ∧ worse classes w c.report.cls = true ∧
              q.place classes c.report front = (q.evict w).join c.report f) ∨
            q.place classes c.report front = q.countLost c.report.cls) := by
      intro front
      simp only [ReportQueue.place]
      by_cases hp : q.pooled < 256
      · exact .inl ⟨hp, front, by rw [if_pos hp]⟩
      · refine .inr ⟨not_lt.1 hp, ?_⟩
        rw [if_neg hp]
        split
        · rename_i w hw
          split
          · rename_i h2; exact .inl ⟨w, front, hw, h2, rfl⟩
          · exact .inr rfl
        · exact .inr rfl
    simp only [ReportQueue.add, hh, Bool.false_eq_true, if_false]
    cases hu : c.urgent
    · exact .inr (place false)
    · by_cases hl : q.urgent.length < 4
      · exact .inl ⟨rfl, hl, by rw [if_pos rfl, if_pos hl]⟩
      · simp only [if_true, hl, if_false]
        exact .inr (place true)
  · exact .inl ⟨rfl, by simp only [ReportQueue.add, hh, if_true]⟩

/-! ## Invariants of the queue over many claims -/

/-- Whatever adding one claim keeps, adding many keeps. -/
theorem addAll_induction {P : ReportQueue → Prop} {classes : PerClass ClassSetting} {cs : List Claim} {q : ReportQueue} (h0 : P q)
    (h : ∀ q, ∀ c ∈ cs, P q → P (q.add classes c)) : P (q.addAll classes cs) := by
  induction cs generalizing q with
  | nil => exact h0
  | cons c cs ih =>
    exact ih (h q c (by simp) h0) fun q d hd => h q d (by simp [hd])

/-! ## The return after an owner change (R73 to R75) -/

/-- Whatever rewriting by a merge and adding a survivor keeps holds of the queue and the survivors after the merging. -/
theorem mergeReturned_induction {P : ReportQueue → List Report → Prop} {rs : List Report} {q : ReportQueue} {kept : List Report}
    (h0 : P q kept)
    (h1 : ∀ q kept, ∀ r ∈ rs, P q kept → q.holds r = true →
      P (q.mapRecords fun x => if r.matches x then r.merged x else x) kept)
    (h2 : ∀ q kept, ∀ r ∈ rs, P q kept → q.holds r = false → kept.any r.matches = true →
      P q (kept.map fun x => if r.matches x then r.merged x else x))
    (h3 : ∀ q kept, ∀ r ∈ rs, P q kept → q.holds r = false → kept.any r.matches = false → P q (r :: kept)) :
    P (mergeReturned rs q kept).1 (mergeReturned rs q kept).2 := by
  induction rs generalizing q kept with
  | nil => exact h0
  | cons r rs ih =>
    have g1 := fun q kept x hx => h1 q kept x (List.mem_cons_of_mem r hx)
    have g2 := fun q kept x hx => h2 q kept x (List.mem_cons_of_mem r hx)
    have g3 := fun q kept x hx => h3 q kept x (List.mem_cons_of_mem r hx)
    simp only [mergeReturned]
    split
    · rename_i h; exact ih (h1 q kept r (by simp) h0 h) g1 g2 g3
    · rename_i h
      rw [Bool.not_eq_true] at h
      split
      · rename_i hk; exact ih (h2 q kept r (by simp) h0 h hk) g1 g2 g3
      · rename_i hk
        rw [Bool.not_eq_true] at hk
        exact ih (h3 q kept r (by simp) h0 h hk) g1 g2 g3

/-- The urgent survivors that take a place are no more than the free places, and every survivor goes to one side or the other. -/
theorem divideReturned_urgent (free : Nat) (rs : List Report) :
    (divideReturned free rs).1.length ≤ free ∧ (∀ r ∈ (divideReturned free rs).1, r ∈ rs ∧ r.urgent = true) ∧
      ∀ r ∈ (divideReturned free rs).2, r.urgent = false ∧ ∃ x ∈ rs, r = { x with urgent := false } := by
  induction rs generalizing free with
  | nil => simp [divideReturned]
  | cons x rs ih =>
    simp only [divideReturned]
    split
    · rename_i hx
      cases free with
      | zero =>
        obtain ⟨h1, h2, h3⟩ := ih 0
        refine ⟨h1, fun r hr => ⟨List.mem_cons_of_mem _ (h2 r hr).1, (h2 r hr).2⟩, fun r hr => ?_⟩
        rcases List.mem_cons.1 hr with rfl | hr
        · exact ⟨rfl, x, by simp, rfl⟩
        · obtain ⟨h4, y, hy, e⟩ := h3 r hr; exact ⟨h4, y, List.mem_cons_of_mem _ hy, e⟩
      | succ n =>
        obtain ⟨h1, h2, h3⟩ := ih n
        refine ⟨by simpa using h1, fun r hr => ?_, fun r hr => ?_⟩
        · rcases List.mem_cons.1 hr with rfl | hr
          · exact ⟨by simp, hx⟩
          · exact ⟨List.mem_cons_of_mem _ (h2 r hr).1, (h2 r hr).2⟩
        · obtain ⟨h4, y, hy, e⟩ := h3 r hr; exact ⟨h4, y, List.mem_cons_of_mem _ hy, e⟩
    · rename_i hx
      rw [Bool.not_eq_true] at hx
      obtain ⟨h1, h2, h3⟩ := ih free
      refine ⟨h1, fun r hr => ⟨List.mem_cons_of_mem _ (h2 r hr).1, (h2 r hr).2⟩, fun r hr => ?_⟩
      rcases List.mem_cons.1 hr with rfl | hr
      · exact ⟨hx, r, by simp, by rw [← hx]⟩
      · obtain ⟨h4, y, hy, e⟩ := h3 r hr; exact ⟨h4, y, List.mem_cons_of_mem _ hy, e⟩

/-- Whatever an eviction keeps, evicting several times keeps. -/
theorem evictTimes_induction {P : ReportQueue → Prop} {classes : PerClass ClassSetting} {n : Nat} {q : ReportQueue} (h0 : P q)
    (h : ∀ q c, P q → P (q.evict c)) : P (q.evictTimes classes n) := by
  induction n generalizing q with
  | zero => exact h0
  | succ n ih =>
    simp only [ReportQueue.evictTimes]
    split
    · exact ih (h _ _ h0)
    · exact h0

end Sys2Proof.Machine
end

