-- ==== Sys2Proof/Laws/Requests.lean ====
section
/-!
SUPPORT. How a request reaches its own rule (R139, R153): what the shared operations `request`, `takeRequest`, `judge` and `respond`
come to under each premise, once, so that no proof about a request command unfolds them.
-/

namespace Sys2Proof.Machine

/-- A request that is taken: what `takeRequest` makes of it. -/
theorem request_taken {src : Node} {tag name : Byte} {params : List Byte} {known : Option RequestName}
    {rule : State → Request → Act} {s : State} (h : s.takes src params) :
    request src tag name params known rule s = .next (s.takeRequest ⟨src, tag, name, params⟩ known rule) := by
  obtain ⟨h1, h2, h3, h4⟩ := h
  have h5 : (validSource src && decide (params.length + 2 ≤ 240)) = true := h4
  simp only [request, whenReleased, h1, State.handRequest, h3, h5, if_true, Bool.false_eq_true, if_false]

/-- While RESET is held a request has no effect (R174). -/
theorem request_held {src : Node} {tag name : Byte} {params : List Byte} {known : Option RequestName}
    {rule : State → Request → Act} {s : State} (h : s.start.resetHeld = true) :
    request src tag name params known rule s = .next s := by
  simp only [request, whenReleased, h, if_true]

/-- A request that meets four waiting responses is refused at the T-port (R139). -/
theorem request_refused {src : Node} {tag name : Byte} {params : List Byte} {known : Option RequestName}
    {rule : State → Request → Act} {s : State} (h1 : s.start.resetHeld = false) (h2 : requestOk src params = true)
    (h3 : 4 ≤ s.requestResponses) : request src tag name params known rule s = .next s.tRefuse := by
  have h5 : (validSource src && decide (params.length + 2 ≤ 240)) = true := h2
  have h6 : ¬ s.requestResponses < Config.responseCapacity := by simp only [Config.responseCapacity]; omega
  simp only [request, whenReleased, h1, State.handRequest, h6, h5, if_true, Bool.false_eq_true, if_false]

/-- What a request can do: nothing while RESET is held, a tally of the T-port, or what taking it makes (R134, R139, R174). -/
theorem request_cases {src : Node} {tag name : Byte} {params : List Byte} {known : Option RequestName}
    {rule : State → Request → Act} {s t : State} (h : request src tag name params known rule s = .next t) :
    s.start.resetHeld = true ∧ t = s ∨
    s.start.resetHeld = false ∧
      (t = s.tError ∨ t = s.tRefuse ∨
        requestOk src params = true ∧ s.requestResponses < Config.responseCapacity ∧
          t = s.takeRequest ⟨src, tag, name, params⟩ known rule) := by
  by_cases h0 : s.start.resetHeld = true
  · rw [request_held h0] at h; cases h; exact .inl ⟨h0, rfl⟩
  · rw [Bool.not_eq_true] at h0
    refine .inr ⟨h0, ?_⟩
    by_cases h1 : (validSource src && decide (params.length + 2 ≤ 240)) = true
    · by_cases h2 : s.requestResponses < Config.responseCapacity
      · simp only [request, whenReleased, h0, State.handRequest, h1, h2, if_true, Bool.false_eq_true, if_false] at h
        cases h; exact .inr (.inr ⟨h1, h2, rfl⟩)
      · simp only [request, whenReleased, h0, State.handRequest, h1, h2, if_true, Bool.false_eq_true, if_false] at h
        cases h; exact .inr (.inl rfl)
    · simp only [request, whenReleased, h0, h1, Bool.false_eq_true, if_false] at h
      cases h; exact .inl rfl

/-! ## Taking a request -/

/-- In SCRUB and LOADING a request is NOT-READY (R154). -/
theorem takeRequest_notReady {q : Request} {known : Option RequestName} {rule : State → Request → Act} {s : State}
    (h : s.started = false) : s.takeRequest q known rule = s.reply q .notReady .none := by
  simp only [State.takeRequest, h, if_true]

/-- A request of another node than the owner goes straight to steps 3 to 6. -/
theorem takeRequest_other {q : Request} {known : Option RequestName} {rule : State → Request → Act} {s : State}
    (h : s.started = true) (ho : s.mgmt.owner ≠ some q.src) : s.takeRequest q known rule = s.judge q known rule := by
  simp [State.takeRequest, h, ho]

/-- A request of the owner, the link NORMAL and the tag not cached, goes to steps 3 to 6. -/
theorem takeRequest_owner {q : Request} {known : Option RequestName} {rule : State → Request → Act} {s : State}
    (h : s.started = true) (ho : s.mgmt.owner = some q.src) (hl : s.emitter.link = .normal) (hc : s.mgmt.cached q.tag = none) :
    s.takeRequest q known rule = s.judge q known rule := by
  simp [State.takeRequest, h, ho, State.endDeaf, hl, hc]

/-- A request of the owner in general: the end of DEAF first, then the repeat cache, then steps 3 to 6 (R153). -/
theorem takeRequest_ofOwner {q : Request} {known : Option RequestName} {rule : State → Request → Act} {s : State}
    (h : s.started = true) (ho : s.mgmt.owner = some q.src) :
    s.takeRequest q known rule =
      match s.mgmt.cached q.tag with
      | some content => s.endDeaf.repeatCached q content
      | none => s.endDeaf.judge q known rule := by
  have hm : s.endDeaf.mgmt = s.mgmt := by cases hl : s.emitter.link <;> simp [State.endDeaf, hl]
  simp only [State.takeRequest, h, ho, if_true, Bool.true_eq_false, if_false, hm]
  all_goals (cases s.mgmt.cached q.tag <;> rfl)

/-- Steps 3 to 6 reach the request's own rule unless step 4 or step 5 stops it. -/
theorem judge_rule {q : Request} {n : RequestName} {rule : State → Request → Act} {s : State}
    (ho : s.mgmt.owner = some q.src ∨ n.isOpen = true) (ha : s.tables.activity = .idle ∨ n.takenWhileBusy = true) :
    s.judge q (some n) rule = (rule s q).apply q := by
  simp only [State.judge]
  rw [if_neg (by rintro ⟨h1, h2⟩; cases ho <;> simp_all), if_neg (by rintro ⟨h1, h2⟩; cases ha <;> simp_all)]

/-- The request commands of the catalogue under the common premises of Sys2Proof/Safety.lean: the rule's answer is applied. -/
theorem request_ready {src : Node} {tag name : Byte} {params : List Byte} {n : RequestName} {rule : State → Request → Act}
    {s : State} (h : s.ready src tag params) :
    request src tag name params (some n) rule s =
      .next ((rule s ⟨src, tag, name, params⟩).apply ⟨src, tag, name, params⟩) := by
  obtain ⟨h1, h2, h3, h4, h5⟩ := h
  rw [request_taken h1, takeRequest_owner h1.2.1 h2 h3 h4, judge_rule (.inl h2) (.inl h5)]

/-! ## Answering -/

/-- A response to the owner joins the response list and the repeat cache (R163). -/
theorem respond_owner {q : Request} {s : State} (st : Status) (r : Results) (h : s.mgmt.owner = some q.src) :
    s.respond q st r = s.answered q.src q.tag q.name st r := by
  simp only [State.respond, h, if_true]; rfl

/-- A response to another node joins the response list alone. -/
theorem respond_other {q : Request} {s : State} (st : Status) (r : Results) (h : s.mgmt.owner ≠ some q.src) :
    s.respond q st r = s.replied ⟨q.src, q.tag, q.name, st, r, false⟩ := by
  simp only [State.respond, h, if_false]; rfl

/-- A response changes nothing but the response list and the repeat cache. -/
theorem respond_eq (s : State) (q : Request) (st : Status) (r : Results) :
    ∃ cache, s.respond q st r = { s.replied (responseTo q st r) with mgmt := { s.mgmt with cache := cache } } := by
  by_cases h : s.mgmt.owner = some q.src
  · exact ⟨some ⟨q.tag, .held (responseTo q st r)⟩, by rw [State.respond, if_pos h]; rfl⟩
  · exact ⟨s.mgmt.cache, by rw [State.respond, if_neg h]; rfl⟩

@[simp] theorem replied_owner (s : State) (r : Response) : (s.replied r).mgmt = s.mgmt := rfl

@[simp] theorem answered_owner (s : State) (src : Node) (tag name : Byte) (st : Status) (r : Results) :
    (s.answered src tag name st r).mgmt.owner = s.mgmt.owner := rfl

/-! ## The request commands -/

/-- The rule of a request command (Section 9.8); a command that is no request has none that matters. -/
def commandRule : Instr → State → Request → Act
  | .claim _ _ _ => claimRule
  | .yieldOwnership _ _ _ => yieldRule
  | .queryStatus _ _ _ => queryStatusRule
  | .readEntry _ _ _ => readEntryRule
  | .readModule _ _ _ => readModuleRule
  | .stageEntry _ _ _ => stageEntryRule
  | .unstageEntry _ _ _ => unstageEntryRule
  | .stageModule _ _ _ => stageModuleRule
  | .unstageModule _ _ _ => unstageModuleRule
  | .clearStaging _ _ _ => clearStagingRule
  | .copyActive _ _ _ => copyActiveRule
  | .commit _ _ _ => commitRule
  | .setClass _ _ _ => setClassRule
  | .setPart _ _ _ => setPartRule
  | .discardClass _ _ _ => discardClassRule
  | .ack _ _ _ => ackRule
  | .sweepStart _ _ _ => sweepStartRule
  | .sweepStop _ _ _ => sweepStopRule
  | .armMark _ _ _ => armMarkRule
  | .disarmMark _ _ _ => disarmMarkRule
  | .hold _ _ _ => holdRule
  | .release _ _ _ => releaseRule
  | .warmRestart _ _ => warmRule
  | .coldRestart _ _ pins => coldRule pins
  | _ => fun s _ => .answer s .unknownRequest .none

/-- Every request command is its request, judged under its name and carried out by its rule. -/
theorem exec_request {c : Instr} {q : Request} (h : commandRequest c = some q) (s : State) :
    exec c s = request q.src q.tag q.name q.params (commandName c) (commandRule c) s := by
  cases c <;> simp only [commandRequest, Option.some.injEq, reduceCtorEq] at h <;> subst h <;> rfl

/-- A well-formed request command has a source and a length that pass the receive checks (R133, R134). -/
theorem requestOk_of_wellFormed {c : Instr} {q : Request} (h : commandRequest c = some q) (hw : c.wellFormed = true) :
    requestOk q.src q.params = true := by
  cases c <;> simp only [commandRequest, Option.some.injEq, reduceCtorEq] at h <;> subst h <;>
    simp_all [Instr.wellFormed, requestOk]

/-- Taking a request depends on its rule at that request alone. -/
theorem takeRequest_congr {q : Request} {known : Option RequestName} {f g : State → Request → Act} (h : ∀ s, f s q = g s q)
    (s : State) : s.takeRequest q known f = s.takeRequest q known g := by
  have hj : ∀ t : State, t.judge q known f = t.judge q known g := by
    intro t; cases known <;> simp only [State.judge, h]
  simp only [State.takeRequest, hj]

end Sys2Proof.Machine
end

