-- ==== Sys2Proof/Tests/Slice0.lean ====
section
/-!
SUPPORT. Tests: well-formedness refuses each kind of ill-formed command; single events of the manual's worked examples, with the
values the manual prints; and, for each statement that has hypotheses, a state and operands that meet them.
-/

open Sys2Proof Sys2Proof.Machine

namespace Sys2Proof.Tests

set_option Elab.async false

/-! ## Small states -/

/-- The state a command leaves. -/
def after (c : Instr) (s : State) : State :=
  match exec c s with
  | .next t => t
  | .fault _ => s
  | .refused _ => s

/-- HELD or another part state, with owner 70 and own node 90. -/
def owned (part : PartState) : State :=
  { State.reset with
    mgmt := ⟨some 70, none, none⟩
    start := { State.reset.start with part := part, ownNode := 90 } }

/-- Entry 12.07 of the worked example of Section 2.8. -/
def entry1207 : EntryConfig :=
  { key := ⟨12, 7⟩, test := .band 400 600 .inside, confirm := 3, cls := 2, policy := .onChange
    reportReturn := true, reportInitial := false, urgent := false, carryPrior := true }

/-- The run state of 12.07 before item 5 of that example. -/
def run1207 : RunState := ⟨.agree, some .disagree, 2, some 655, some 580⟩

/-- Bank A ACTIVE with 12.07 and module 12 LIVE. -/
def tables (activity : Activity) : TableStore :=
  ⟨⟨[⟨entry1207, run1207⟩], [⟨12, 50, 3, .live, .running 50 50⟩]⟩, .empty, .a, 6, activity⟩

/-- RUNNING with that table, current cycle 3140. -/
def running (activity : Activity) : State :=
  { owned .running with tables := tables activity, sweep := { SweepGenerator.atReset with cycle := some 3140 } }

/-- A link frame as R185 lays it out. -/
def frame (dest src kind : Byte) (payload : List Byte) : List Byte :=
  let body := dest :: src :: kind :: 0 :: byteOf payload.length :: payload
  body ++ wordBytes (crc body)

/-- A POINT frame of module 12 with item (7, v, GOOD) or (7, 0, FAULT). -/
def pointFrame (v : Word) : List Byte := frame 0 12 1 ([12, 1, 7, 0] ++ wordBytes v)

/-- A report record of a CHANGE for 12.07. -/
def change : Report := changeReport ⟨entry1207, run1207⟩ 670 (some 3140)

/-- An outstanding record of it. -/
def sentRecord (number : Word) (t : TransmitState) : Outstanding := ⟨change, number, 0, t⟩

/-- Owner 70, HELD, two records outstanding. -/
def outstandingTwo (link : Link) (first : TransmitState) : State :=
  { owned .held with
    emitter :=
      { Emitter.atReset with
        nextNumber := 42, outstanding := [sentRecord 40 first, sentRecord 41 .sent], link := link
        ackTimer := if first = .sent ∧ link = .normal then .running 100 100 else .stopped
        hailTimer := if link = .deaf then .running 1000 1000 else .stopped }
    start := { (owned .held).start with alert := decide (link = .deaf) } }

/-- RUNNING with that table, module 12 in a state and its timer standing so. -/
def supervising (st : ModuleState) (t : Timer) (activity : Activity) : State :=
  let s := running activity
  { s with tables := s.tables.setActive (s.tables.active.setSlot 12 st t) }

/-- Two records outstanding, the ack wait and hail timers run out. -/
def outstandingLate (link : Link) : State :=
  let s := outstandingTwo link .sent
  { s with
    emitter :=
      { s.emitter with
        ackTimer := if link = .normal then .running 0 100 else .stopped
        hailTimer := if link = .deaf then .running 0 1000 else .stopped } }

/-- DEAF with a HAIL pending. -/
def hailing : State :=
  let s := outstandingTwo .deaf .sent
  { s with emitter := { s.emitter with hailPending := true } }

/-- A state whose Up FIFO is full. -/
def upFull (s : State) : State := { s with ports := { s.ports with up := List.replicate 8 (.passed []) } }

/-- Levels on the pins. -/
def pins90 : Pins := ⟨90, .image⟩

/-! ## Ill-formed commands are refused -/

theorem test_ill_formed_source : (Instr.claim 0 1 [0]).wellFormed = false := by decide
theorem test_ill_formed_source_127 : (Instr.coldRestart 127 1 pins90).wellFormed = false := by decide
theorem test_ill_formed_length : (Instr.stageEntry 70 1 (List.replicate 239 0)).wellFormed = false := by decide +kernel
theorem test_ill_formed_name : (Instr.unknownRequest 70 1 23 []).wellFormed = false := by decide
theorem test_ill_formed_header : (Instr.imageHeaderRead [1, 0, 8, 70, 1, 0]).wellFormed = false := by decide
theorem test_ill_formed_record : (Instr.imageRecordRead (List.replicate 258 0)).wellFormed = false := by decide +kernel
theorem test_ill_formed_crc : (Instr.imageCrcRead [0, 0, 0]).wellFormed = false := by decide
theorem test_ill_formed_station : (Instr.silenceExpiry 0).wellFormed = false := by decide
theorem test_well_formed_request : (Instr.unknownRequest 70 1 24 []).wellFormed = true := by decide

/-! ## Layouts -/

/-- The check value usually quoted for this CRC over the nine digits (from outside the manual: its polynomial and start, R185). -/
theorem test_crc_check_value : crc [0x31, 0x32, 0x33, 0x34, 0x35, 0x36, 0x37, 0x38, 0x39] = 0x29B1 := by decide +kernel

/-- Section 11.6: the header and payload of REPORT 502, byte by byte. -/
theorem test_report_frame :
    (frameBytes 70 90 .report 0 (reportPayload ⟨change, 502, 0, .sending⟩)).take 22 =
      [70, 90, 2, 0, 17, 1, 2, 12, 7, 15, 1, 0, 0, 1, 246, 2, 2, 158, 2, 68, 12, 68] := by decide +kernel

/-- Section 11.6: the whole frame is 24 bytes long. -/
theorem test_report_frame_length :
    (frameBytes 70 90 .report 0 (reportPayload ⟨change, 502, 0, .sending⟩)).length = 24 := by decide +kernel

/-! ## Evaluation: the seven items of Section 2.8 -/

theorem test_item_1 :
    evaluateItem ⟨entry1207, ⟨.agree, none, 0, some 512, some 512⟩⟩ ⟨7, 650, .good⟩ =
      (⟨.agree, some .disagree, 1, some 650, some 512⟩, none) := by decide
theorem test_item_2 :
    evaluateItem ⟨entry1207, ⟨.agree, some .disagree, 1, some 650, some 512⟩⟩ ⟨7, 580, .good⟩ =
      (⟨.agree, none, 0, some 580, some 580⟩, none) := by decide
theorem test_item_5 :
    evaluateItem ⟨entry1207, run1207⟩ ⟨7, 670, .good⟩ =
      (⟨.disagree, none, 0, some 670, some 580⟩, some ⟨.agree, .disagree⟩) := by decide
theorem test_item_6 :
    evaluateItem ⟨entry1207, ⟨.disagree, none, 0, some 670, some 580⟩⟩ ⟨7, 0, .fault⟩ =
      (⟨.faulted, none, 0, some 670, some 580⟩, some ⟨.disagree, .faulted⟩) := by decide
theorem test_item_7 :
    evaluateItem ⟨entry1207, ⟨.faulted, none, 0, some 670, some 580⟩⟩ ⟨7, 500, .good⟩ =
      (⟨.unknown, some .agree, 1, some 500, some 580⟩, none) := by decide

/-- The CHANGE of item 5, with its value, prior value and cycle stamp, is the one record of class list 2. -/
theorem test_change_queued :
    ((after (.fPortFrameReceived (pointFrame 670)) (running .idle)).queue.lists.get 2).map
        (fun r => (r.kind, r.key, r.value, r.prior, r.cycle)) =
      [(.change, .point ⟨12, 7⟩, some 670, some 580, some 3140)] := by decide +kernel

/-! ## Routing: lines of the table of Section 8.8 -/

theorem test_origin_differs : (after (.fPortFrameReceived (frame 0 12 1 [14, 1, 7, 0, 2, 158])) (running .idle)).ports.fErrors = 1 := by
  decide +kernel
theorem test_data_for_head : (after (.fPortFrameReceived (frame 0 5 7 [1])) (running .idle)).ports.fRefused = 1 := by decide +kernel
theorem test_data_up : (after (.fPortFrameReceived (frame 77 5 7 [1])) (running .idle)).ports.up.length = 1 := by decide +kernel
theorem test_data_field_internal : after (.fPortFrameReceived (frame 6 5 7 [1])) (running .idle) = running .idle := by decide +kernel
theorem test_data_own_node : (after (.tPortFrameReceived (frame 90 70 7 [1]) pins90) (running .idle)).ports.tRefused = 1 := by
  decide +kernel
theorem test_mark_broadcast : (after (.tPortFrameReceived (frame 127 70 3 [3, 44]) pins90) (running .idle)).sweep.cycle = some 812 := by
  decide +kernel
theorem test_mark_to_node : (after (.tPortFrameReceived (frame 64 70 3 [3, 44]) pins90) (running .idle)).ports.tRefused = 1 := by
  decide +kernel
theorem test_data_down : (after (.tPortFrameReceived (frame 33 70 7 [1]) pins90) (running .idle)).ports.down.length = 1 := by
  decide +kernel

/-! ## Requests and the start -/

/-- Section 9.9, step 2: a CLAIM while another node is the owner. -/
theorem test_claim_refused :
    (after (.claim 85 1 [0]) (owned .held)).ports.responses = [⟨85, 1, 1, .notOwner, .owner (some 70), false⟩] := by decide +kernel
/-- Section 9.9, step 10: a forced CLAIM while HELD. -/
theorem test_claim_forced : (after (.claim 85 5 [1]) (owned .held)).mgmt.owner = some 85 := by decide +kernel
/-- Section 7.7, step 2: low above high is BAD-REQUEST. -/
theorem test_stage_low_above_high :
    ((after (.stageEntry 70 2 [5, 14, 2, 0, 100, 0, 0, 1, 2, 1, 2, 0]) (owned .held)).ports.responses.map fun r => r.status) =
      [.badRequest] := by decide +kernel
/-- Section 7.7, step 3. -/
theorem test_stage_added :
    ((after (.stageEntry 70 3 [5, 14, 2, 0, 0, 0, 100, 1, 2, 1, 2, 0]) (owned .held)).ports.responses.map fun r => r.results) =
      [.staged .added 1] := by decide +kernel
/-- Section 5.11, time 1850: ACK of the newest number empties the list. -/
theorem test_ack_newest : (after (.ack 70 18 [0, 41]) (outstandingTwo .normal .sent)).emitter.outstanding = [] := by decide +kernel
/-- Section 5.11, time 101: the oldest record is FLAGGED with retry count 1. -/
theorem test_ack_wait_expiry :
    ((after .ackWaitExpiry (outstandingLate .normal)).emitter.outstanding.map fun o => (o.transmit, o.retry)) =
      [(.flagged, 1), (.sent, 0)] := by decide +kernel
/-- Section 5.11, time 1800: a request of the owner ends DEAF and ALERT. -/
theorem test_deaf_ends :
    ((after (.queryStatus 70 17 []) (outstandingTwo .deaf .sent)).emitter.link,
      (after (.queryStatus 70 17 []) (outstandingTwo .deaf .sent)).start.alert) = (.normal, false) := by decide +kernel
/-- Section 3.8, time 98: the expiry clears the debounce run and raises SILENT. -/
theorem test_silence_expiry :
    ((after (.silenceExpiry 12) (supervising .live (.running 0 50) .idle)).tables.bankA.entries.map fun e =>
        (e.run.candidate, e.run.runLength)) = [(none, 0)] ∧
      ((after (.silenceExpiry 12) (supervising .live (.running 0 50) .idle)).queue.lists.get 3).map (fun r => r.kind) = [.silent] := by
  decide +kernel
/-- R51, the frame first: it restarts the timer, and the expiry that falls together with it does not occur. -/
theorem test_frame_before_expiry :
    let s := after (.fPortFrameReceived (pointFrame 670)) (supervising .live (.running 0 50) .idle)
    after (.silenceExpiry 12) s = s ∧ s.tables.bankA.slots = [⟨12, 50, 3, .live, .running 50 50⟩] := by decide +kernel
/-- R51, the expiry first: SILENT, then RESUMED, in the class list of the module. -/
theorem test_expiry_before_frame :
    ((after (.fPortFrameReceived (pointFrame 512)) (after (.silenceExpiry 12) (supervising .live (.running 0 50) .idle))).queue.lists.get
        3).map (fun r => r.kind) = [.silent, .resumed] := by decide +kernel
/-- Section 6.8, steps 1 and 2: SWEEP-START, then a win of the first key in scope. -/
theorem test_sweep_win :
    (((after (.sweepStart 70 1 [0, 0]) (running .idle)).sweepWin).2.cursor,
      ((after (.sweepStart 70 1 [0, 0]) (running .idle)).sweepWin).1.kind) = (some ⟨12, 7⟩, .sweep) := by decide +kernel
/-- Section 10.8: the header of the image is kept. -/
theorem test_image_header :
    ((after (.imageHeaderRead [1, 0, 8, 70, 1])
      { State.reset with start := { State.reset.start with part := .loading, loader := { Loader.atRest with phase := .header } } }).start.loader.phase,
      (after (.imageHeaderRead [1, 0, 8, 70, 1])
      { State.reset with start := { State.reset.start with part := .loading, loader := { Loader.atRest with phase := .header } } }).start.loader.preset) =
      (.records 8, some 70) := by decide +kernel

/-! ## Witnesses: states and operands that meet the premises of the statements, clause by clause -/

/-- LOADING, the reader about to read this. -/
def loading (p : LoadPhase) : State :=
  { State.reset with start := { State.reset.start with part := .loading, loader := { Loader.atRest with phase := p } } }

/-- A queue whose 256 class records are all of class 5. -/
def fullQueue : ReportQueue :=
  { ReportQueue.atReset with lists := .ofFn fun c => if c = 5 then List.replicate 256 { change with cls := 5 } else [] }

/-- A COMMIT or COPY-ACTIVE of node 70, tag 21, in progress on these tables. -/
def operating (o : Operation) (t : TableStore) : State :=
  { owned .running with tables := t, mgmt := ⟨some 70, none, some ⟨o, 21, 70⟩⟩ }

/-- The table of `tables` in the STAGING bank, with or without its module. -/
def staged (listed : Bool) : TableStore :=
  ⟨.empty, ⟨[⟨entry1207, .emptied⟩], if listed then [⟨12, 50, 3, .unheard, .stopped⟩] else []⟩, .a, 0, .committing⟩

/-- Four responses wait. -/
def crowded : State :=
  { owned .held with
    ports := { Ports.atReset with responses := List.replicate 4 ⟨70, 1, 3, .done, .none, false⟩ } }

/-- Owner 70 under an entry of the repeat cache. -/
def cachedTag (content : CacheContent) : State := { owned .held with mgmt := ⟨some 70, some ⟨9, content⟩, none⟩ }

theorem witness_StepWithNoCommand :
    State.reset.pending = [] ∧ State.reset.due = [] ∧ crowded.pending = [] ∧ crowded.due = [.transmitGrant] ∧
      (after .pinReset State.reset).start.resetHeld = true ∧ hailing.due = [.transmitGrant] ∧
      (supervising .live (.running 0 50) .idle).due = [.silenceExpiry 12] ∧ (running .idle).due = [] ∧
      (outstandingLate .normal).due = [.ackWaitExpiry] ∧ (outstandingLate .deaf).due = [.hailExpiry] := by decide +kernel

theorem witness_PinResetHolds :
    (after .pinReset State.reset).start.resetHeld = true ∧ Instr.endOfScrub ≠ .pinReset ∧
      ∀ pins, Instr.endOfScrub ≠ .endOfPinReset pins := ⟨by decide +kernel, by decide, fun _ h => nomatch h⟩

theorem witness_ScrubIsEntered :
    (owned .running).takes 70 [2] ∧ (owned .running).mgmt.owner = some 70 ∧ (owned .running).mgmt.cached 1 = none := by decide +kernel

theorem witness_EndOfScrubStarts : State.reset.start.resetHeld = false ∧ State.reset.start.part = .scrub := by decide +kernel

theorem witness_WarmRestartKeepsConfiguration :
    (owned .held).takes 70 [1] ∧ (owned .held).mgmt.owner = some 70 ∧ (owned .held).mgmt.cached 1 = none := by decide +kernel

/-! The requests of the owner: taken, the link NORMAL, the tag not cached, the table activity IDLE. -/

theorem witness_HoldAndRelease : (running .idle).ready 70 1 [] ∧ (owned .held).ready 70 1 [] := by decide +kernel

/-- The return of two records of one key and kind leaves one, with both counts, ahead of what stands in the class list. -/
theorem witness_OwnerChangeEvent :
    (outstandingTwo .normal .sent).ready 70 1 [] ∧
      (((ReportQueue.atReset.setList 2 [{ change with kind := .returned }]).takeBack Emitter.atReset.classes
        (outstandingTwo .normal .sent).emitter.outstanding).lists.get 2).map (fun r => (r.kind, r.repeatCount)) =
        [(.change, 2), (.returned, 1)] := by decide +kernel

theorem witness_StagingRequestsWriteStaging :
    (owned .held).ready 70 3 [5, 14, 2, 0, 0, 0, 100, 1, 2, 1, 2, 0] ∧ (owned .held).ready 70 255 (List.replicate 238 0) := by
  decide +kernel

/-- SET-CLASS and DISCARD-CLASS; SET-PART with ack wait 1275 and sweep rank 7, with no field, and a byte short. -/
theorem witness_SettingRequests :
    (owned .held).ready 70 1 [2, 2, 1, 8, 20] ∧ (running .idle).ready 70 1 [0] ∧ (owned .held).ready 70 1 [65, 4, 251, 7] ∧
      (65 : Byte).getLsbD 0 = (some (1275 : Word)).isSome ∧ (65 : Byte).getLsbD 6 = (some (7 : Byte)).isSome ∧
      [(1275 : Word).extractLsb' 8 8, (1275 : Word).extractLsb' 0 8] = [(4 : Byte), 251] ∧
      (owned .held).ready 70 1 [65, 4, 251] ∧ [(65 : Byte), 4, 251].length ≠ 4 := by decide +kernel

theorem witness_SweepRequests : (running .idle).ready 70 1 [0, 0] ∧ (running .idle).ready 70 1 [17, 60, 2, 7] := by decide +kernel

theorem witness_OperationsTaken : (running .idle).ready 70 1 [] := by decide +kernel

theorem witness_ImageHeaderIsJudged :
    (loading .header).start.resetHeld = false ∧ (loading .header).start.part = .loading ∧
      (loading .header).start.loader.phase = .header := by decide +kernel

theorem witness_ImageRecordIsApplied :
    (loading (.records 1)).start.resetHeld = false ∧ (loading (.records 1)).start.part = .loading ∧
      (loading (.records 1)).start.loader.phase = .records 1 ∧ [(5 : Byte), 0, 100, 3].length = (4 : Byte).toNat ∧
      ([] : List Byte).length = (0 : Byte).toNat := by decide +kernel

theorem witness_ImageEndDecidesTheLoad :
    (loading .crc).start.resetHeld = false ∧ (loading .crc).start.part = .loading ∧ (loading .crc).start.loader.phase = .crc ∧
      (loading .crc).supervised := by decide +kernel

theorem witness_FPortRouting : (running .idle).start.resetHeld = false := by decide +kernel

/-- Outside RUNNING, and of an unlisted module in RUNNING. -/
theorem witness_UnevaluatedFramesPassWhole :
    receive true (pointFrame 670) = some ⟨0, 12, .point 12 [⟨7, 670, .good⟩]⟩ ∧ (owned .held).start.resetHeld = false ∧
      (owned .held).start.ownNode ≠ 0 ∧ (owned .held).start.part ≠ .running ∧ (owned .running).start.part = .running ∧
      (owned .running).tables.active.lists 12 = false := by decide +kernel

theorem witness_ModuleHeardDuringOperation :
    (running .committing).start.resetHeld = false ∧
      receive true (pointFrame 670) = some ⟨0, 12, .point 12 [⟨7, 670, .good⟩]⟩ ∧ (running .committing).start.ownNode ≠ 0 ∧
      (running .committing).start.part = .running ∧ (running .committing).tables.activity ≠ .idle ∧
      (running .committing).tables.active.slot? 12 = some ⟨12, 50, 3, .live, .running 50 50⟩ ∧
      (running .committing).ports.up.length < 8 ∧ 8 ≤ (upFull (running .committing)).ports.up.length ∧
      (supervising .silent .stopped .committing).tables.active.slot? 12 = some ⟨12, 50, 3, .silent, .stopped⟩ := by decide +kernel

theorem witness_EvaluatedFrame :
    (running .idle).start.resetHeld = false ∧ receive true (pointFrame 670) = some ⟨0, 12, .point 12 [⟨7, 670, .good⟩]⟩ ∧
      (running .idle).start.ownNode ≠ 0 ∧ (running .idle).start.part = .running ∧ (running .idle).tables.activity = .idle ∧
      (running .idle).tables.active.slot? 12 = some ⟨12, 50, 3, .live, .running 50 50⟩ ∧ ModuleState.live ≠ .silent ∧
      (supervising .silent .stopped .idle).tables.active.slot? 12 = some ⟨12, 50, 3, .silent, .stopped⟩ ∧
      (running .idle).ports.up.length < 8 ∧ 8 ≤ (upFull (running .idle)).ports.up.length ∧
      (evaluateItems 12 .forward (some 3140) (running .idle).tables.active [⟨7, 670, .good⟩]).kept ≠ [] ∧
      (evaluateItems 12 .drop (some 3140) (running .idle).tables.active [⟨8, 670, .good⟩]).kept = [] := by decide +kernel

theorem witness_FaultItemIsOneQuality :
    ({ run1207 with verdict := .faulted } : RunState).verdict = .faulted ∧ run1207.verdict ≠ .faulted := by decide

theorem witness_TransitionReports :
    change =
      { kind := .change, cls := entry1207.cls, key := .point entry1207.key, verdict := some .disagree, value := some 670
        prior := if entry1207.carryPrior = true then run1207.prior else none
        cycle := some 3140, repeatCount := 1, lostBefore := 0, urgent := false, restart := none, sweep := none } := by decide

theorem witness_PatternTest :
    ({ entry1207 with test := .pattern 240 48 } : EntryConfig).test = .pattern 240 48 ∧ (240 : Word).getLsbD 4 = true := by decide

/-- A low of 101 above a high of 100, from the owner and in an image; each sense at the bounds of a band. -/
theorem witness_BandTest :
    ((0 : Byte) ++ (100 : Byte) : Word).toNat < ((0 : Byte) ++ (101 : Byte) : Word).toNat ∧
      (owned .held).ready 70 2 [5, 14, 2, 0, 101, 0, 100, 1, 2, 1, 2, 0] ∧ (loading (.records 3)).start.resetHeld = false ∧
      (loading (.records 3)).start.part = .loading ∧ (loading (.records 3)).start.loader.phase = .records 3 ∧
      entry1207.test = .band 400 600 .inside ∧ (Test.band 400 600 .inside).agrees 600 = true ∧
      (Test.band 400 600 .outside).agrees 600 = false := by decide +kernel

theorem witness_FieldFramesChangeNoConfiguration :
    ∃ t, exec (.fPortFrameReceived (pointFrame 670)) (running .idle) = .next t := ⟨_, rfl⟩

theorem witness_TPortRouting :
    receive false (frame 33 70 7 [1]) = some ⟨33, 70, .unread⟩ ∧ receive false (frame 127 70 7 [1]) = some ⟨127, 70, .unread⟩ ∧
      receive false (frame 64 70 3 [3, 44]) = some ⟨64, 70, .scanMark 812⟩ := by decide +kernel

theorem witness_ScanMarkTaken :
    (running .idle).start.resetHeld = false ∧ receive false (frame 127 70 3 [3, 44]) = some ⟨127, 70, .scanMark 812⟩ ∧
      (running .idle).start.ownNode ≠ 127 ∧ (running .idle).ports.down.length < 8 ∧
      8 ≤ ({ Ports.atReset with down := List.replicate 8 [] } : Ports).down.length := by decide +kernel

theorem witness_RequestFrameIsItsCommand :
    commandRequest (.queryStatus 70 17 []) = some ⟨70, 17, 3, []⟩ ∧ (Instr.queryStatus 70 17 []).wellFormed = true ∧
      (∀ src tag p, Instr.queryStatus 70 17 [] = .coldRestart src tag p → p = pins90) ∧
      receive false (frame 90 70 4 [17, 3]) = some ⟨90, 70, .mgmtReq [17, 3]⟩ :=
  ⟨by decide, by decide, fun _ _ _ h => (nomatch h), by decide +kernel⟩

/-- A RESTART of no known level, by the owner and by another node; payloads of one byte and of none. -/
theorem witness_RequestFrameIsItsCommand_rest :
    receive false (frame 90 70 4 [17, 23, 3]) = some ⟨90, 70, .mgmtReq [17, 23, 3]⟩ ∧ ([3] : List Byte) ≠ [1] ∧ ([3] : List Byte) ≠ [2] ∧
      (outstandingTwo .deaf .sent).takes 70 [3] ∧ (outstandingTwo .deaf .sent).mgmt.owner = some 70 ∧
      (outstandingTwo .deaf .sent).mgmt.cached 17 = none ∧ (outstandingTwo .deaf .sent).start.ownNode = 90 ∧
      receive false (frame 90 85 4 [17, 23, 3]) = some ⟨90, 85, .mgmtReq [17, 23, 3]⟩ ∧ (owned .held).mgmt.owner ≠ some 85 ∧
      receive false (frame 90 70 4 [17]) = some ⟨90, 70, .mgmtReq [17]⟩ ∧ receive false (frame 90 70 4 []) = some ⟨90, 70, .mgmtReq []⟩ := by
  decide +kernel

theorem witness_RequestsNotJudged :
    commandRequest (.claim 85 1 [0]) = some ⟨85, 1, 1, [0]⟩ ∧ (Instr.claim 85 1 [0]).wellFormed = true ∧ 4 ≤ crowded.requestResponses ∧
      crowded.start.resetHeld = false ∧ State.reset.requestResponses < 4 ∧ State.reset.start.part = .scrub ∧
      (cachedTag .inProgress).takes 70 [] ∧ (cachedTag .inProgress).mgmt.owner = some 70 ∧
      (cachedTag .inProgress).emitter.link = .normal ∧ (cachedTag .inProgress).mgmt.cache = some ⟨9, .inProgress⟩ ∧
      commandRequest (.hold 70 9 []) = some ⟨70, 9, 21, []⟩ := by decide +kernel

theorem witness_OwnerRequestEndsDeaf :
    commandRequest (.queryStatus 70 17 []) = some ⟨70, 17, 3, []⟩ ∧ (outstandingTwo .deaf .sent).takes 70 [] ∧
      (outstandingTwo .deaf .sent).mgmt.owner = some 70 ∧ (outstandingTwo .deaf .sent).emitter.link = .deaf := by decide +kernel

theorem witness_RequestsJudgedInOrder :
    (owned .held).takes 85 [] ∧ (owned .held).mgmt.owner ≠ some 85 ∧ commandName (.unknownRequest 85 1 24 []) = none ∧
      commandName (.hold 85 1 []) = some .hold ∧ RequestName.isOpen .hold = false ∧
      (operating .commit (staged true)).takes 70 [] ∧ (operating .commit (staged true)).mgmt.owner = some 70 ∧
      (operating .commit (staged true)).emitter.link = .normal ∧ (operating .commit (staged true)).mgmt.cached 22 = none ∧
      (operating .commit (staged true)).tables.activity ≠ .idle ∧
      RequestName.hold ∉ [RequestName.queryStatus, .readEntry, .readModule, .ack, .claim, .restart] := by decide +kernel

theorem witness_NonOwnerChangesNothing :
    commandRequest (.readEntry 85 1 [1, 0, 12, 7]) = some ⟨85, 1, 4, [1, 0, 12, 7]⟩ ∧ (running .idle).mgmt.owner ≠ some 85 ∧
      (∀ src tag params, Instr.readEntry 85 1 [1, 0, 12, 7] ≠ .claim src tag params) ∧
      ∃ t, exec (.readEntry 85 1 [1, 0, 12, 7]) (running .idle) = .next t :=
  ⟨by decide, by decide, fun _ _ _ h => (nomatch h), _, rfl⟩

/-! The requests open to every node: by another node, and by the owner with the link NORMAL and the tag not cached. -/

theorem witness_ClaimByOwnerAndForce :
    ((owned .held).takes 85 [1] ∧ ((owned .held).mgmt.owner = some 85 →
        (owned .held).emitter.link = .normal ∧ (owned .held).mgmt.cached 1 = none)) ∧
      (owned .held).takes 70 [0] ∧ (owned .held).takes 70 [] ∧ (owned .held).takes 85 [1, 0] ∧ (owned .held).mgmt.owner = some 70 ∧
      (owned .held).emitter.link = .normal ∧ (owned .held).mgmt.cached 1 = none := by decide +kernel

theorem witness_QueryStatusReports :
    (running .idle).takes 85 [] ∧ (running .idle).takes 85 [0] ∧ (running .idle).mgmt.owner ≠ some 85 ∧ (running .idle).takes 70 [] ∧
      (running .idle).mgmt.owner = some 70 ∧ (running .idle).emitter.link = .normal ∧ (running .idle).mgmt.cached 1 = none := by
  decide +kernel

theorem witness_ReadsOfTheTables :
    (running .idle).takes 85 [1, 0, 12, 7] ∧ (running .idle).takes 85 [2, 1, 0, 255] ∧ (running .idle).takes 85 [2, 63] ∧
      (running .idle).mgmt.owner ≠ some 85 := by decide +kernel

theorem witness_AckRemovesFromTheFront :
    (outstandingTwo .normal .sent).takes 70 [0, 40] ∧ (outstandingTwo .normal .sent).takes 70 [40] ∧
      (outstandingTwo .normal .sent).takes 70 [0, 40, 0] ∧ (outstandingTwo .normal .sent).mgmt.owner = some 70 ∧
      (outstandingTwo .normal .sent).emitter.link = .normal ∧ (outstandingTwo .normal .sent).mgmt.cached 1 = none := by decide +kernel

theorem witness_OperationsEnd :
    (operating .commit (staged true)).start.resetHeld = false ∧
      (operating .commit (staged true)).mgmt.inProgress = some ⟨.commit, 21, 70⟩ ∧
      (operating .commit (staged true)).tables.activity = .committing ∧ (staged true).staging.firstUnlisted = none ∧
      (staged false).staging.firstUnlisted = some ⟨12, 7⟩ ∧
      (operating .copyActive (tables .copying)).mgmt.inProgress = some ⟨.copyActive, 21, 70⟩ ∧
      (operating .copyActive (tables .copying)).tables.activity = .copying := by decide +kernel

/-- Four urgent records, of four points, none of them 12.07's. -/
def urgentFull (q : ReportQueue) : ReportQueue :=
  { q with
    urgent :=
      [⟨1, 0⟩, ⟨1, 1⟩, ⟨1, 2⟩, ⟨1, 3⟩].map fun k : PointKey => { change with key := .point k, urgent := true } }

/-- An urgent report beside four urgent records, with room in the class lists and without. -/
theorem witness_ReportsJoinTheQueue_urgent :
    4 ≤ (urgentFull .atReset).urgent.length ∧ (urgentFull .atReset).holds change = false ∧ (urgentFull .atReset).pooled < 256 ∧
      4 ≤ (urgentFull fullQueue).urgent.length ∧ (urgentFull fullQueue).holds { change with key := .head } = false ∧
      256 ≤ (urgentFull fullQueue).pooled ∧ (urgentFull fullQueue).lists.get 5 ≠ [] := by decide +kernel

theorem witness_ReportsJoinTheQueue :
    ({ ReportQueue.atReset with urgent := [change] } : ReportQueue).holds change = true ∧ ReportQueue.atReset.holds change = false ∧
      ReportQueue.atReset.urgent.length < 4 ∧ ReportQueue.atReset.pooled < 256 ∧ 256 ≤ fullQueue.pooled ∧
      fullQueue.holds { change with key := .head } = false ∧ fullQueue.lists.get 5 ≠ [] ∧
      (∀ d : ReportClass, fullQueue.lists.get d ≠ [] → d ≠ 5 → worse Emitter.atReset.classes 5 d = true) ∧
      worse Emitter.atReset.classes 5 2 = true := by decide +kernel

/-- Class 2 with a period of 20 ms, its refill timer run out. -/
def refillDue : State :=
  let s := after (.setClass 70 1 [2, 2, 1, 8, 20]) (owned .held)
  { s with emitter := { s.emitter with refill := s.emitter.refill.set 2 (.running 0 20) } }

/-- Timers that have run out, with time left, and stopped. -/
theorem witness_TimerExpiries :
    (supervising .live (.running 0 50) .idle).start.resetHeld = false ∧ (supervising .live (.running 0 50) .idle).start.part = .running ∧
      (supervising .live (.running 0 50) .idle).tables.active.slot? 12 = some ⟨12, 50, 3, .live, .running 0 50⟩ ∧
      (outstandingLate .normal).emitter.ackTimer = .running 0 100 ∧
      (outstandingLate .normal).emitter.outstanding = [sentRecord 40 .sent, sentRecord 41 .sent] ∧
      (outstandingLate .deaf).emitter.link = .deaf ∧ (outstandingLate .deaf).emitter.hailTimer = .running 0 1000 ∧
      refillDue.started = true ∧ refillDue.emitter.refill.get 2 = .running 0 20 ∧ (refillDue.emitter.classes.get 2).period ≠ 0 ∧
      (running .idle).tables.active.slot? 12 = some ⟨12, 50, 3, .live, .running 50 50⟩ ∧ 0 < (50 : Nat) ∧
      (∀ d, Timer.running 50 50 ≠ .running 0 d) ∧ ∀ d, Timer.stopped ≠ .running 0 d :=
  ⟨by decide +kernel, by decide +kernel, by decide +kernel, rfl, rfl, rfl, rfl, by decide +kernel, by decide +kernel, by decide +kernel,
    by decide +kernel, by decide, fun _ h => (nomatch h), fun _ h => (nomatch h)⟩

/-- A state with one frame in the Up FIFO and no report to send, and DEAF with a HAIL pending. -/
theorem witness_GrantsBesideReports :
    crowded.start.resetHeld = false ∧ crowded.ports.tSending = none ∧ crowded.ports.responses ≠ [] ∧
      (after (.fPortFrameReceived (frame 77 5 7 [1])) (owned .held)).ports.up ≠ [] ∧
      (after (.fPortFrameReceived (frame 77 5 7 [1])) (owned .held)).reportOffer = none ∧
      (after .hailExpiry (outstandingLate .deaf)).ports.up = [] ∧
      (after .hailExpiry (outstandingLate .deaf)).emitter.hailPending = true ∧
      (after .hailExpiry (outstandingLate .deaf)).emitter.link = .deaf := by decide +kernel

/-- Each of the four choices of the Emitter. -/
theorem witness_GrantsOfReports :
    (outstandingTwo .normal .flagged).reportOffer = some (70, .retransmit (sentRecord 40 .flagged)) ∧
      ({ owned .held with queue := { ReportQueue.atReset with urgent := [change] } } : State).reportOffer = some (70, .urgent change) ∧
      ({ owned .held with queue := ReportQueue.atReset.setList 2 [change] } : State).reportOffer = some (70, .fromClass 2 change) ∧
      (after (.sweepStart 70 1 [0, 0]) (running .idle)).reportOffer = some (70, .sweep) ∧
      (outstandingTwo .normal .flagged).ports.up = [] ∧ (outstandingTwo .normal .flagged).ports.tSending = none ∧
      (outstandingTwo .normal .flagged).ports.responses = [] := by decide +kernel

theorem witness_SweepWins :
    (after (.sweepStart 70 1 [0, 0]) (running .idle)).sweep.state = .active ∧
      (after (.sweepStart 70 1 [0, 0]) (running .idle)).sweep.scope = some .all ∧
      (after (.sweepStop 70 2 []) (after (.sweepStart 70 1 [0, 0]) (running .idle))).sweep.state = .stopping := by decide +kernel

theorem witness_EndsOfTransmission :
    (after .transmitGrant (outstandingTwo .normal .flagged)).start.resetHeld = false ∧
      ((after .transmitGrant (outstandingTwo .normal .flagged)).ports.tSending.map fun f => f.report) = some (some 40) ∧
      (after (.tPortFrameReceived (frame 33 70 7 [1]) pins90) (running .idle)).ports.fSending = none ∧
      (after (.tPortFrameReceived (frame 33 70 7 [1]) pins90) (running .idle)).ports.down ≠ [] := by decide +kernel

theorem witness_NoReportWithoutOwnerOrWhileDeaf :
    State.reset.mgmt.owner = none ∧ (outstandingTwo .deaf .sent).emitter.link = .deaf ∧
      ∃ t, exec .transmitGrant (outstandingTwo .deaf .sent) = .next t := ⟨rfl, rfl, _, rfl⟩

theorem witness_RecordsLeaveOnlyByAckOwnerOrRestart :
    (∃ t, exec .ackWaitExpiry (outstandingLate .normal) = .next t) ∧ (∀ pins, Instr.ackWaitExpiry ≠ .endOfPinReset pins) ∧
      (∀ bytes pins, Instr.ackWaitExpiry ≠ .tPortFrameReceived bytes pins) ∧
      ∀ n, commandName .ackWaitExpiry = some n → n ∉ [RequestName.ack, .claim, .yieldOwnership, .restart] :=
  ⟨⟨_, rfl⟩, fun _ h => (nomatch h), fun _ _ h => (nomatch h), fun _ h => (nomatch h)⟩

/-- A grant that the sweep wins moves the cursor and keeps the number. -/
theorem witness_CursorAscends :
    (after .transmitGrant (after .tPortFrameEnd (after .transmitGrant
        (after (.sweepStart 70 1 [0, 0]) (running .idle))))).sweep.cursor = some ⟨12, 7⟩ ∧
      (after .transmitGrant (after .tPortFrameEnd (after .transmitGrant
        (after (.sweepStart 70 1 [0, 0]) (running .idle))))).sweep.number =
      (after .tPortFrameEnd (after .transmitGrant (after (.sweepStart 70 1 [0, 0]) (running .idle)))).sweep.number := by
  decide +kernel

theorem witness_LayoutsReadBack :
    entry1207.inRange ∧ ({ entry1207 with key := ⟨63, 31⟩, confirm := 15 } : EntryConfig).inRange ∧
      (⟨7, true, 63, 255⟩ : ClassSetting).inRange ∧ (⟨0, false, 1, 0⟩ : ClassSetting).inRange ∧ 1 ≤ (12 : Station).val ∧
      10 ≤ 2550 ∧ 2550 % 10 = 0 ∧ 1 ≤ [(⟨7, 670, .good⟩ : Item)].length ∧ (List.replicate 8 (⟨7, 670, .good⟩ : Item)).length ≤ 8 := by
  decide +kernel

theorem witness_OwnFramesPassTheChecks :
    1 ≤ (126 : Node).toNat ∧ (126 : Node).toNat ≤ 126 ∧ OwnKind.hail ≠ .point ∧ (List.replicate 240 (0 : Byte)).length ≤ 240 := by
  decide +kernel

/-- Frames that a check refuses: a CRC one bit wrong, source 0, kind 8, a SCAN-MARK of one byte, a POINT frame of another module. -/
theorem test_receive_refuses :
    receive false ((frame 90 70 7 [1]).dropLast ++ [(frame 90 70 7 [1]).getLastD 0 ^^^ 1]) = none ∧
      receive false (frame 90 0 7 [1]) = none ∧ receive false (frame 90 70 8 [1]) = none ∧ receive false (frame 127 70 3 [3]) = none ∧
      receive true (frame 0 12 1 [14, 1, 7, 0, 2, 158]) = none := by decide +kernel

/-! Each law of Sys2Proof/Safety.lean at a state in operation, from which a step answers a next state. -/

theorem witness_StepKeepsTablesSound : (running .idle).tables.sound ∧ ∃ t, step (running .idle) = .next t :=
  ⟨by decide +kernel, _, rfl⟩

theorem witness_StepKeepsSupervision : (running .idle).supervised ∧ ∃ t, step (running .idle) = .next t :=
  ⟨by decide +kernel, _, rfl⟩

theorem witness_StepKeepsQueueSound :
    (outstandingTwo .normal .sent).queueSound ∧ ∃ t, step (outstandingTwo .normal .sent) = .next t := ⟨by decide +kernel, _, rfl⟩

/-- The same record twice, once as a CHANGE and once as a RETURN. -/
def twoKinds : State :=
  { owned .held with queue := (ReportQueue.atReset.setList 2 [change, { change with kind := .returned }]) }

theorem witness_StepKeepsRecordsDistinct : twoKinds.queue.distinct ∧ ∃ t, step twoKinds = .next t := ⟨by decide +kernel, _, rfl⟩

theorem witness_StepKeepsOutstandingSound :
    (outstandingTwo .normal .sent).outstandingSound ∧ (outstandingTwo .normal .flagged).outstandingSound ∧
      ∃ t, step (outstandingTwo .normal .sent) = .next t := ⟨by decide +kernel, by decide +kernel, _, rfl⟩

theorem witness_StepKeepsSettingsSound :
    (outstandingTwo .deaf .sent).settingsSound ∧ ∃ t, step (outstandingTwo .deaf .sent) = .next t := ⟨by decide +kernel, _, rfl⟩

theorem witness_StepKeepsLinkSound :
    (outstandingTwo .deaf .sent).linkSound ∧ ∃ t, step (outstandingTwo .deaf .sent) = .next t := ⟨by decide +kernel, _, rfl⟩

theorem witness_StepKeepsRequestsSound :
    (operating .commit (staged true)).requestsSound ∧ ∃ t, step (operating .commit (staged true)) = .next t :=
  ⟨by decide +kernel, _, rfl⟩

end Sys2Proof.Tests
end

section
/-!
PROOFS. The point table's two tests (R6, R7): what PATTERN and BAND agree with, the raw verdict of a GOOD item, and the refusal
of a BAND entry whose low exceeds its high, by STAGE-ENTRY and by the image load.
-/

namespace Sys2Proof.Machine

/-! ## The raw verdict -/

/-- The raw verdict is AGREE on the values the test agrees with (R29). -/
theorem raw_agree_iff (t : Test) (v : Word) : t.raw v = .agree ↔ t.agrees v = true := by
  cases h : t.agrees v <;> simp [Test.raw, h]

/-- The raw verdict is DISAGREE on all others (R29). -/
theorem raw_disagree_iff (t : Test) (v : Word) : t.raw v = .disagree ↔ t.agrees v = false := by
  cases h : t.agrees v <;> simp [Test.raw, h]

/-- A GOOD item is recorded and debounced with the raw verdict of its entry's test (R29, R31 to R34). -/
theorem evaluateItem_good {e : Entry} {t : Test} (h : e.config.test = t) (p : Fin 32) (v : Word) :
    evaluateItem e ⟨p, v, .good⟩ = (e.run.leaveFault.recorded (t.raw v) v).debounce e.config.confirm (t.raw v) := by
  subst h; rfl

/-! ## PATTERN -/

theorem pattern_agrees_iff (mask compare v : Word) :
    (Test.pattern mask compare).agrees v = true ↔ v &&& mask = compare &&& mask := by
  simp only [Test.agrees, decide_eq_true_eq]

/-- Two words masked alike are equal exactly when they are equal in every bit of the mask. -/
theorem and_mask_eq_iff (mask compare v : Word) :
    v &&& mask = compare &&& mask ↔ ∀ i : Fin 16, mask.getLsbD i = true → v.getLsbD i = compare.getLsbD i := by
  constructor
  · intro h i hi
    have hbit := congrArg (fun w : Word => w.getLsbD i) h
    simpa only [BitVec.getLsbD_and, hi, Bool.and_true] using hbit
  · intro h
    refine BitVec.eq_of_getLsbD_eq fun i hi => ?_
    rw [BitVec.getLsbD_and, BitVec.getLsbD_and]
    cases hm : mask.getLsbD i
    · rw [Bool.and_false, Bool.and_false]
    · rw [h ⟨i, hi⟩ hm]

/-- Mask 0 selects no bit (R6). -/
theorem pattern_agrees_mask_zero (compare v : Word) : (Test.pattern 0 compare).agrees v = true :=
  (pattern_agrees_iff 0 compare v).mpr (BitVec.and_zero.trans BitVec.and_zero.symm)

/-- Mask 65535 selects every bit (R6). -/
theorem pattern_agrees_mask_all (compare v : Word) : (Test.pattern 65535 compare).agrees v = true ↔ v = compare := by
  have hall : (65535 : Word) = BitVec.allOnes 16 := rfl
  rw [pattern_agrees_iff, hall, BitVec.and_allOnes, BitVec.and_allOnes]

/-- Settles O19: the masked words are compared bit by bit. -/
theorem patternTest : Obligations.PatternTest := fun mask compare v =>
  ⟨(pattern_agrees_iff mask compare v).trans (and_mask_eq_iff mask compare v),
    pattern_agrees_mask_zero compare v, pattern_agrees_mask_all compare v,
    raw_agree_iff _ v, raw_disagree_iff _ v, fun _ p h => evaluateItem_good h p v⟩

/-! ## BAND -/

theorem band_inside_agrees_iff (low high v : Word) :
    (Test.band low high .inside).agrees v = true ↔ low.toNat ≤ v.toNat ∧ v.toNat ≤ high.toNat := by
  simp only [Test.agrees, Bool.and_eq_true, decide_eq_true_eq]

theorem band_outside_agrees_iff (low high v : Word) :
    (Test.band low high .outside).agrees v = true ↔ v.toNat < low.toNat ∨ high.toNat < v.toNat := by
  simp only [Test.agrees, Bool.or_eq_true, decide_eq_true_eq]

/-- The two senses are each other's complement. -/
theorem band_outside_agrees_eq_not_inside (low high v : Word) :
    (Test.band low high .outside).agrees v = !(Test.band low high .inside).agrees v := by
  rw [Bool.eq_iff_iff, Bool.not_eq_true', ← Bool.not_eq_true, band_outside_agrees_iff, band_inside_agrees_iff]
  omega

/-- A band of one value (R7). -/
theorem band_inside_agrees_single (low v : Word) : (Test.band low low .inside).agrees v = true ↔ v = low := by
  rw [band_inside_agrees_iff, ← BitVec.toNat_inj]
  omega

/-- The band of all values (R7). -/
theorem band_inside_agrees_all (v : Word) : (Test.band 0 65535 .inside).agrees v = true :=
  (band_inside_agrees_iff 0 65535 v).mpr ⟨Nat.zero_le _, Nat.le_of_lt_succ v.isLt⟩

/-! ## A low above the high is refused -/

theorem readTest_band_inverted {low high : Word} (h : high.toNat < low.toNat) (sense : Byte) : readTest 2 low high sense = none := by
  have hkind : (2 : Byte).toNat = 2 := rfl
  simp only [readTest, hkind, if_neg (Nat.not_le.mpr h)]

/-- The twelve bytes of a BAND entry whose low exceeds its high are no entry (R7, R118). -/
theorem readEntryConfig_band_inverted {lowHigh lowLow highHigh highLow : Byte}
    (h : (highHigh ++ highLow : Word).toNat < (lowHigh ++ lowLow : Word).toNat) (m p sense confirm cls policy flags : Byte) :
    readEntryConfig [m, p, 2, lowHigh, lowLow, highHigh, highLow, sense, confirm, cls, policy, flags] = none := by
  have htest : readTest 2 (word lowHigh lowLow) (word highHigh highLow) sense = none := readTest_band_inverted h sense
  simp only [readEntryConfig, htest]
  cases readPointKey m p <;> rfl

/-- A STAGE-ENTRY whose parameters are no entry (R118). -/
theorem exec_stageEntry_badRequest {s : State} {src : Node} {tag : Byte} {params : List Byte} (hready : s.ready src tag params)
    (hread : readEntryConfig params = none) :
    exec (.stageEntry src tag params) s = .next (s.answered src tag 6 .badRequest .none) := by
  have ⟨_, howner, _⟩ := hready
  have hrule : stageEntryRule s ⟨src, tag, 6, params⟩ = .answer s .badRequest .none := by simp only [stageEntryRule, hread]
  calc exec (.stageEntry src tag params) s
      = request src tag 6 params (some .stageEntry) stageEntryRule s := rfl
    _ = .next ((stageEntryRule s ⟨src, tag, 6, params⟩).apply ⟨src, tag, 6, params⟩) := request_ready hready
    _ = .next (s.respond ⟨src, tag, 6, params⟩ .badRequest .none) := by rw [hrule, Act.apply]
    _ = .next (s.answered src tag 6 .badRequest .none) := by rw [respond_owner .badRequest .none howner]

/-- The model's end of a failed load is the one the statements spell out (R178). -/
theorem loadFails_eq_loadFailed (s : State) (reason : LoadFailure) : s.loadFails reason = s.loadFailed reason := rfl

/-- A POINT-ENTRY record of twelve bytes that are no entry (R176, R188). -/
theorem readRecord_pointEntry_range {content : List Byte} (hlength : content.length = 12) (hread : readEntryConfig content = none) :
    readRecord (1 :: 12 :: content) = .error .range := by
  have htake : content.take 12 = content := List.take_of_length_le hlength.le
  simp [readRecord, recordLengthOk, readRecordContent, hlength, hread, htake]

/-- Such a record ends the load with RANGE. -/
theorem exec_imageRecordRead_range {s : State} {left : Nat} {content : List Byte} (hreset : s.start.resetHeld = false)
    (hpart : s.start.part = .loading) (hphase : s.start.loader.phase = .records left) (hlength : content.length = 12)
    (hread : readEntryConfig content = none) :
    exec (.imageRecordRead (1 :: 12 :: content)) s = .next (s.loadFailed .range) := by
  rw [exec_imageRecordRead hreset hpart hphase, readRecord_pointEntry_range hlength hread]
  rfl

/-- Settles O20: the bounds of each sense, and that no reader of entries accepts an inverted band. -/
theorem bandTest : Obligations.BandTest := by
  unfold Obligations.BandTest
  constructor
  · intro low high v
    refine ⟨band_inside_agrees_iff low high v, band_outside_agrees_iff low high v, band_inside_agrees_single low v, ?_,
      band_inside_agrees_all v, ?_, fun sense =>
        ⟨raw_agree_iff _ v, raw_disagree_iff _ v, fun _ p h => evaluateItem_good h p v⟩⟩
    · rw [band_outside_agrees_eq_not_inside, Bool.not_eq_true', ← Bool.not_eq_true, band_inside_agrees_single]
    · rw [band_outside_agrees_eq_not_inside, band_inside_agrees_all, Bool.not_true]
  · intro m p lowHigh lowLow highHigh highLow sense confirm cls policy flags hinverted
    have hread := readEntryConfig_band_inverted hinverted m p sense confirm cls policy flags
    exact ⟨fun _ _ _ hready => exec_stageEntry_badRequest hready hread,
      fun _ _ hreset hpart hphase => exec_imageRecordRead_range hreset hpart hphase rfl hread⟩

end Sys2Proof.Machine
end

section
/-!
PROOFS. One evaluated item (R30 to R34): what leaving FAULTED and the debounce make of a run state, field by field, and the FAULT item
with its one QUALITY report.
-/

namespace Sys2Proof.Machine

/-! ## Out of FAULTED (R31) -/

@[simp] theorem leaveFault_verdict (r : RunState) :
    r.leaveFault.verdict = if r.verdict = .faulted then .unknown else r.verdict :=
  apply_ite RunState.verdict ..

@[simp] theorem leaveFault_candidate (r : RunState) :
    r.leaveFault.candidate = if r.verdict = .faulted then none else r.candidate :=
  apply_ite RunState.candidate ..

@[simp] theorem leaveFault_runLength (r : RunState) :
    r.leaveFault.runLength = if r.verdict = .faulted then 0 else r.runLength :=
  apply_ite RunState.runLength ..

/-- Leaving FAULTED touches neither carried value. -/
@[simp] theorem leaveFault_prior (r : RunState) : r.leaveFault.prior = r.prior :=
  (apply_ite RunState.prior ..).trans (ite_self _)

/-! ## The debounce run (R32, R33) -/

/-- A raw verdict that upholds the standing one abandons the run. -/
theorem debounce_of_upheld {r : RunState} {raw : RawVerdict} (h : raw.toVerdict = r.verdict) (confirm : Nat) :
    r.debounce confirm raw = (⟨r.verdict, none, 0, r.last, r.prior⟩, none) := if_pos h

/-- A raw verdict against the standing one begins or advances the run, below the confirm count. -/
theorem debounce_of_lt_confirm {r : RunState} {raw : RawVerdict} {confirm : Nat} (h : raw.toVerdict ≠ r.verdict)
    (hrun : r.advanced raw < confirm) :
    r.debounce confirm raw = (⟨r.verdict, some raw, r.advanced raw, r.last, r.prior⟩, none) :=
  (if_neg h).trans (if_pos hrun)

/-- At the confirm count the transition is taken. -/
theorem debounce_of_confirm_le {r : RunState} {raw : RawVerdict} {confirm : Nat} (h : raw.toVerdict ≠ r.verdict)
    (hrun : confirm ≤ r.advanced raw) :
    r.debounce confirm raw = (⟨raw.toVerdict, none, 0, r.last, r.prior⟩, some ⟨r.verdict, raw.toVerdict⟩) :=
  (if_neg h).trans (if_neg hrun.not_gt)

/-- The prior value is the item's under AGREE upheld, and stays otherwise (R34). -/
@[simp] theorem recorded_prior (r : RunState) (raw : RawVerdict) (v : Word) :
    (r.recorded raw v).prior = if r.verdict = .agree ∧ raw = .agree then some v else r.prior := rfl

/-- The item's values are written first (R34) and do not enter the debounce. -/
theorem recorded_debounce (r : RunState) (confirm : Nat) (raw : RawVerdict) (v : Word) :
    (r.recorded raw v).debounce confirm raw =
      if raw.toVerdict = r.verdict then (⟨r.verdict, none, 0, some v, (r.recorded raw v).prior⟩, none)
      else if r.advanced raw < confirm then
        (⟨r.verdict, some raw, r.advanced raw, some v, (r.recorded raw v).prior⟩, none)
      else (⟨raw.toVerdict, none, 0, some v, (r.recorded raw v).prior⟩, some ⟨r.verdict, raw.toVerdict⟩) := by
  split_ifs with hupheld hrun
  · exact debounce_of_upheld (r := r.recorded raw v) hupheld confirm
  · exact debounce_of_lt_confirm (r := r.recorded raw v) hupheld hrun
  · exact debounce_of_confirm_le (r := r.recorded raw v) hupheld (Nat.le_of_not_lt hrun)

/-- Settles O16: the debounce of the run state that leaving FAULTED gives, written out by its fields. -/
theorem goodItemAdvancesTheRun : Obligations.GoodItemAdvancesTheRun := by
  intro e p v
  rw [evaluateItem_good rfl p v, recorded_debounce]
  simp only [recorded_prior, RunState.advanced, leaveFault_verdict, leaveFault_candidate, leaveFault_runLength,
    leaveFault_prior]

/-! ## A FAULT item (R30) -/

/-- An entry already FAULTED stays so. -/
theorem evaluateItem_fault_of_faulted {e : Entry} (h : e.run.verdict = .faulted) (p : Fin 32) (v : Word) :
    evaluateItem e ⟨p, v, .fault⟩ = (⟨.faulted, none, 0, e.run.last, e.run.prior⟩, none) :=
  calc evaluateItem e ⟨p, v, .fault⟩
      = (e.run.debounceCleared, none) := if_pos h
    _ = (⟨.faulted, none, 0, e.run.last, e.run.prior⟩, none) := by rw [RunState.debounceCleared, h]

/-- From any other verdict the entry is FAULTED at once, without regard to the confirm count. -/
theorem evaluateItem_fault_of_not_faulted {e : Entry} (h : e.run.verdict ≠ .faulted) (p : Fin 32) (v : Word) :
    evaluateItem e ⟨p, v, .fault⟩ =
      (⟨.faulted, none, 0, e.run.last, e.run.prior⟩, some ⟨e.run.verdict, .faulted⟩) := if_neg h

/-- Entry into FAULTED raises a QUALITY (R36), which carries nothing of the run state. -/
theorem transitionClaim_faulted (e : Entry) (r : RunState) (v : Word) (cycle : Option Word) (before : Verdict) :
    transitionClaim { e with run := r } v cycle ⟨before, .faulted⟩ = some ⟨qualityReport e cycle, e.config.urgent⟩ := by
  cases before <;> rfl

/-- Settles O17, by whether the entry was FAULTED before the item. -/
theorem faultItemIsOneQuality : Obligations.FaultItemIsOneQuality := by
  intro e p v cycle
  by_cases h : e.run.verdict = .faulted
  · rw [evaluateItem_fault_of_faulted h]
    exact ⟨rfl, fun _ => rfl, fun hne => absurd h hne, by simp [ForwardPolicy.keeps, h]⟩
  · rw [evaluateItem_fault_of_not_faulted h]
    exact ⟨rfl, fun hf => absurd hf h, fun _ => ⟨rfl, transitionClaim_faulted e _ v cycle _⟩, by simp [ForwardPolicy.keeps, h]⟩

end Sys2Proof.Machine
end

section
/-!
PROOFS. The staging requests (R118 to R122): the answer of each rule case by case, and the request of the owner that carries it
out.
-/

namespace Sys2Proof.Machine

/-! ## A rule that answers -/

/-- A request of the owner whose rule answers from a state of the same owner: that state, answered (R153, R163). -/
theorem request_answer {src : Node} {tag name : Byte} {params : List Byte} {n : RequestName} {rule : State → Request → Act}
    {s t : State} {st : Status} {r : Results} (hready : s.ready src tag params)
    (hrule : rule s ⟨src, tag, name, params⟩ = .answer t st r) (howner : t.mgmt.owner = s.mgmt.owner) :
    request src tag name params (some n) rule s = .next (t.answered src tag name st r) := by
  have ⟨_, hsrc, _⟩ := hready
  rw [request_ready hready, hrule, Act.apply, respond_owner st r (howner.trans hsrc)]

/-! ## The STAGING bank -/

/-- There is no room exactly for a new key when 512 entries are held (R4). -/
theorem TableStore.hasRoom_eq_false_iff (t : TableStore) (k : PointKey) :
    t.hasRoom k = false ↔ (t.staging.entry? k).isSome = false ∧ 512 ≤ t.staging.entries.length := by
  simp only [TableStore.hasRoom, Bool.or_eq_false_iff, decide_eq_false_iff_not, Nat.not_lt]

theorem Bank.dropEntry_eq (b : Bank) (k : PointKey) :
    b.dropEntry k = { b with entries := b.entries.filter fun e => decide (e.config.key ≠ k) } := by
  simp only [Bank.dropEntry, ne_eq, decide_not]

theorem Bank.dropSlot_eq (b : Bank) (m : Station) :
    b.dropSlot m = { b with slots := b.slots.filter fun x => decide (x.station ≠ m) } := by
  simp only [Bank.dropSlot, ne_eq, decide_not]

/-! ## The rules (R118 to R122) -/

/-- A new key past 512 is refused, with the count as it stands (R118). -/
theorem stageEntryRule_full {s : State} {q : Request} {c : EntryConfig} (hread : readEntryConfig q.params = some c)
    (hroom : s.tables.hasRoom c.key = false) :
    stageEntryRule s q = .answer s .tableFull (.stagingCount s.tables.staging.entries.length) := by
  simp only [stageEntryRule, hread, hroom, Bool.false_eq_true, if_false]

/-- The count in the answer is that of the bank as written. -/
theorem stageEntryRule_done {s : State} {q : Request} {c : EntryConfig} (hread : readEntryConfig q.params = some c)
    (hroom : s.tables.hasRoom c.key = true) :
    stageEntryRule s q =
      .answer (s.withTables (s.tables.setStaging (s.tables.staging.putEntry ⟨c, .emptied⟩))) .done
        (.staged (if (s.tables.staging.entry? c.key).isSome = true then .replaced else .added)
          (s.tables.staging.putEntry ⟨c, .emptied⟩).entries.length) := by
  simp only [stageEntryRule, hread, hroom, if_true, TableStore.stageEntry, TableStore.setStaging_staging]

/-- Its parameters are a key of two bytes (R187). -/
theorem unstageEntryRule_length {s : State} {q : Request} (hlength : q.params.length ≠ 2) :
    unstageEntryRule s q = .answer s .badRequest .none := by
  unfold unstageEntryRule
  split
  case h_1 hparams => exact absurd (congrArg List.length hparams) hlength
  case h_2 => rfl

/-- A station or point out of its range (R184). -/
theorem unstageEntryRule_range {s : State} {q : Request} {m p : Byte} (hparams : q.params = [m, p])
    (hkey : readPointKey m p = none) : unstageEntryRule s q = .answer s .badRequest .none := by
  simp only [unstageEntryRule, hparams, hkey]

theorem unstageEntryRule_absent {s : State} {q : Request} {m p : Byte} {k : PointKey} (hparams : q.params = [m, p])
    (hkey : readPointKey m p = some k) (habsent : s.tables.staging.entry? k = none) :
    unstageEntryRule s q = .answer s .noEntry .none := by
  simp only [unstageEntryRule, hparams, hkey, habsent]

theorem unstageEntryRule_done {s : State} {q : Request} {m p : Byte} {k : PointKey} {e : Entry} (hparams : q.params = [m, p])
    (hkey : readPointKey m p = some k) (hpresent : s.tables.staging.entry? k = some e) :
    unstageEntryRule s q =
      .answer (s.withTables (s.tables.setStaging (s.tables.staging.dropEntry k))) .done
        (.stagingCount (s.tables.staging.dropEntry k).entries.length) := by
  simp only [unstageEntryRule, hparams, hkey, hpresent, TableStore.setStaging_staging]

theorem stageModuleRule_range {s : State} {q : Request} (hread : readModuleListing q.params = none) :
    stageModuleRule s q = .answer s .badRequest .none := by
  simp only [stageModuleRule, hread]

/-- Listed afresh either way; the outcome tells what the slot was (R120). -/
theorem stageModuleRule_done {s : State} {q : Request} {m : Station} {limit : Nat} {cls : ReportClass}
    (hread : readModuleListing q.params = some (m, limit, cls)) :
    stageModuleRule s q =
      .answer (s.withTables (s.tables.stageModule m limit cls)) .done
        (.listed (if s.tables.staging.lists m = true then .restaged else .newlyListed)) := by
  simp only [stageModuleRule, hread]

/-- Its parameters are a station of one byte (R187). -/
theorem unstageModuleRule_length {s : State} {q : Request} (hlength : q.params.length ≠ 1) :
    unstageModuleRule s q = .answer s .badRequest .none := by
  unfold unstageModuleRule
  split
  case h_1 hparams => exact absurd (congrArg List.length hparams) hlength
  case h_2 => rfl

theorem unstageModuleRule_range {s : State} {q : Request} {st : Byte} (hparams : q.params = [st])
    (hread : readStation st = none) : unstageModuleRule s q = .answer s .badRequest .none := by
  simp only [unstageModuleRule, hparams, hread]

theorem unstageModuleRule_done {s : State} {q : Request} {st : Byte} {m : Station} (hparams : q.params = [st])
    (hread : readStation st = some m) :
    unstageModuleRule s q =
      .answer (s.withTables (s.tables.setStaging (s.tables.staging.dropSlot m))) .done
        (.unlisted (if s.tables.staging.lists m = true then .wasListed else .wasUnlisted)) := by
  simp only [unstageModuleRule, hparams, hread]

/-- The counts in the answer are those of the bank before it is emptied (R122). -/
theorem clearStagingRule_nil {s : State} {q : Request} (hparams : q.params = []) :
    clearStagingRule s q =
      .answer (s.withTables s.tables.clearStaging) .done
        (.cleared s.tables.staging.entries.length s.tables.staging.slots.length) := by
  simp only [clearStagingRule, hparams]

/-- CLEAR-STAGING carries no parameters (R122). -/
theorem clearStagingRule_nonempty {s : State} {q : Request} (hparams : q.params ≠ []) :
    clearStagingRule s q = .answer s .badRequest .none := by
  unfold clearStagingRule
  split
  case h_1 hnil => exact absurd hnil hparams
  case h_2 => rfl

/-! ## The requests -/

section
variable {s : State} {src : Node} {tag : Byte} {params : List Byte}

/-- STAGE-ENTRY of an entry in its ranges: TABLE-FULL for a new key past 512, and DONE otherwise (R4, R118). -/
theorem exec_stageEntry (hready : s.ready src tag params) {c : EntryConfig} (hread : readEntryConfig params = some c) :
    exec (.stageEntry src tag params) s = .next
      (if (s.tables.staging.entry? c.key).isSome = false ∧ 512 ≤ s.tables.staging.entries.length then
        s.answered src tag 6 .tableFull (.stagingCount s.tables.staging.entries.length)
      else
        (s.withTables (s.tables.setStaging (s.tables.staging.putEntry ⟨c, .emptied⟩))).answered src tag 6 .done
          (.staged (if (s.tables.staging.entry? c.key).isSome = true then .replaced else .added)
            (s.tables.staging.putEntry ⟨c, .emptied⟩).entries.length)) := by
  by_cases hfull : (s.tables.staging.entry? c.key).isSome = false ∧ 512 ≤ s.tables.staging.entries.length
  · rw [if_pos hfull]
    have hroom := (s.tables.hasRoom_eq_false_iff c.key).mpr hfull
    exact request_answer hready (stageEntryRule_full hread hroom) rfl
  · rw [if_neg hfull]
    have hroom := Bool.eq_true_of_not_eq_false (mt (s.tables.hasRoom_eq_false_iff c.key).mp hfull)
    exact request_answer hready (stageEntryRule_done hread hroom) rfl

/-- UNSTAGE-ENTRY of another length than a key's (R119). -/
theorem exec_unstageEntry_length (hready : s.ready src tag params) (hlength : params.length ≠ 2) :
    exec (.unstageEntry src tag params) s = .next (s.answered src tag 7 .badRequest .none) :=
  request_answer hready (unstageEntryRule_length hlength) rfl

/-- UNSTAGE-ENTRY of a key: the entry leaves, or there is none (R119). -/
theorem exec_unstageEntry {m p : Byte} (hready : s.ready src tag [m, p]) {k : PointKey} (hkey : readPointKey m p = some k) :
    exec (.unstageEntry src tag [m, p]) s = .next
      (if (s.tables.staging.entry? k).isSome = true then
        (s.withTables (s.tables.setStaging (s.tables.staging.dropEntry k))).answered src tag 7 .done
          (.stagingCount (s.tables.staging.dropEntry k).entries.length)
      else s.answered src tag 7 .noEntry .none) := by
  cases hentry : s.tables.staging.entry? k with
  | none => exact request_answer hready (unstageEntryRule_absent rfl hkey hentry) rfl
  | some e => exact request_answer hready (unstageEntryRule_done rfl hkey hentry) rfl

/-- UNSTAGE-MODULE of parameters that are no single byte (R121). -/
theorem exec_unstageModule_length (hready : s.ready src tag params) (hlength : params.length ≠ 1) :
    exec (.unstageModule src tag params) s = .next (s.answered src tag 9 .badRequest .none) :=
  request_answer hready (unstageModuleRule_length hlength) rfl

/-- UNSTAGE-MODULE of a station: the slot is unlisted, whether it was listed or not (R121). -/
theorem exec_unstageModule {st : Byte} (hready : s.ready src tag [st]) {m : Station} (hread : readStation st = some m) :
    exec (.unstageModule src tag [st]) s = .next
      ((s.withTables (s.tables.setStaging (s.tables.staging.dropSlot m))).answered src tag 9 .done
        (.unlisted (if s.tables.staging.lists m = true then .wasListed else .wasUnlisted))) :=
  request_answer hready (unstageModuleRule_done rfl hread) rfl

end

/-- Settles O33: each request by what its parameters read as. -/
theorem stagingRequestsWriteStaging : Obligations.StagingRequestsWriteStaging := by
  unfold Obligations.StagingRequestsWriteStaging
  constructor
  · intro s src tag params hready
    cases hread : readEntryConfig params with
    | none => exact exec_stageEntry_badRequest hready hread
    | some c => exact exec_stageEntry hready hread
  · intro s src tag params hready staging wrote
    refine ⟨?unstageEntry, ?stageModule, ?unstageModule, ?clearStaging⟩
    case unstageEntry =>
      match params, hready with
      | [], hready | [_], hready | _ :: _ :: _ :: _, hready => exact exec_unstageEntry_length hready (by simp)
      | [m, p], hready =>
        dsimp only
        cases hkey : readPointKey m p with
        | none => exact request_answer hready (unstageEntryRule_range rfl hkey) rfl
        | some k =>
          have hexec := exec_unstageEntry hready hkey
          rw [Bank.dropEntry_eq] at hexec
          exact hexec
    case stageModule =>
      cases hread : readModuleListing params with
      | none => exact request_answer hready (stageModuleRule_range hread) rfl
      | some listing => exact request_answer hready (stageModuleRule_done hread) rfl
    case unstageModule =>
      match params, hready with
      | [], hready | _ :: _ :: _, hready => exact exec_unstageModule_length hready (by simp)
      | [st], hready =>
        dsimp only
        cases hread : readStation st with
        | none => exact request_answer hready (unstageModuleRule_range rfl hread) rfl
        | some m =>
          have hexec := exec_unstageModule hready hread
          rw [Bank.dropSlot_eq] at hexec
          exact hexec
    case clearStaging =>
      split_ifs with hparams
      · exact request_answer hready (clearStagingRule_nil hparams) rfl
      · exact request_answer hready (clearStagingRule_nonempty hparams) rfl

end Sys2Proof.Machine
end

section
/-!
PROOFS. The routing of the F-port (R134 to R136, R143): a frame offered to the Up FIFO, written out, and the effect of each line of
the table.
-/

namespace Sys2Proof.Machine

/-- A frame offered to the Up FIFO, by the room and the part state (R143). -/
theorem offerUp_eq (s : State) (f : UpFrame) :
    s.offerUp f =
      if s.ports.up.length < 8 then { s with ports := { s.ports with up := s.ports.up ++ [f] } }
      else if s.start.part = .held ∨ s.start.part = .running then
        { s with
          queue := s.queue.add s.emitter.classes ⟨headReport .uplinkFull s.start.settings.headClass s.sweep.cycle, false⟩ }
      else s := by
  obtain ⟨hroom, hjoins⟩ | ⟨hfull, hraises⟩ := offerUp_cases s f
  · rw [if_pos hroom, hjoins]
    rfl
  · rw [if_neg hfull.not_gt, hraises, State.uplinkClaims]
    simp only [started_iff]
    split_ifs <;> rfl

/-! ## The lines of the table (R136) -/

section
variable {s : State} {bytes : List Byte} {f : LinkFrame}

/-- The own node comes first, so that a part whose node is 0 takes no frame as the head's. -/
theorem routeField_own (hown : f.dest = s.start.ownNode) : s.routeField bytes f = s.fRefuse := if_pos hown

/-- The head takes POINT frames only. -/
theorem routeField_head_of_not_point (hown : f.dest ≠ s.start.ownNode) (hhead : f.dest = 0)
    (hbody : ∀ origin items, f.body ≠ .point origin items) : s.routeField bytes f = s.fRefuse := by
  have hzero : f.dest.toNat = 0 := by rw [hhead]; rfl
  rw [State.routeField, if_neg hown, if_pos hzero]
  split
  next origin items hpoint => exact absurd hpoint (hbody origin items)
  next => rfl

/-- A node of the trunk is one from 64 on, but 127. -/
theorem trunkNode_iff (n : Node) : 64 ≤ n.toNat ∧ n.toNat ≤ 126 ↔ 64 ≤ n.toNat ∧ n ≠ 127 := by bv_omega

theorem routeField_of_not_head (hown : f.dest ≠ s.start.ownNode) (hhead : f.dest ≠ 0) :
    s.routeField bytes f = if 64 ≤ f.dest.toNat ∧ f.dest ≠ 127 then s.offerUp (.passed bytes) else s := by
  have hzero : f.dest.toNat ≠ 0 := by bv_omega
  simp only [State.routeField, if_neg hown, if_neg hzero, trunkNode_iff]

end

/-- Settles O11, by the receive checks and then line by line of the table. -/
theorem fPortRouting : Obligations.FPortRouting := by
  intro s bytes hreset
  cases hframe : receive true bytes with
  | none => exact exec_fPortFrame_bad hreset hframe
  | some f =>
    rw [exec_fPortFrame_good hreset hframe]
    dsimp only
    congr 1
    by_cases hown : f.dest = s.start.ownNode
    · rw [if_pos hown]
      exact routeField_own hown
    rw [if_neg hown]
    by_cases hhead : f.dest = 0
    · rw [if_pos hhead]
      obtain ⟨dest, src, body⟩ := f
      obtain rfl : dest = 0 := hhead
      cases body with
      | point origin items => exact routeField_point (Ne.symm hown)
      | scanMark _ | mgmtReq _ | unread => exact routeField_head_of_not_point hown rfl nofun
    · rw [if_neg hhead, routeField_of_not_head hown hhead, offerUp_eq]

end Sys2Proof.Machine
end

section
/-!
PROOFS. The reads of the tables (R166, R167): what the role, mode and key bytes name, the answer of each rule case by case, and the
requests, open to every node and taken at any table activity.
-/

namespace Sys2Proof.Machine

/-! ## A request that is open and taken while busy -/

/-- A response is cached exactly when the requester is the owner (R163). -/
theorem respond_eq_ite (s : State) (q : Request) (st : Status) (r : Results) :
    s.respond q st r =
      if s.mgmt.owner = some q.src then s.answered q.src q.tag q.name st r
      else s.replied ⟨q.src, q.tag, q.name, st, r, false⟩ := by
  split_ifs with howner
  · exact respond_owner st r howner
  · exact respond_other st r howner

/-- A request open to every node and taken while busy whose rule answers: the state of the answer, responded from (R153, R154,
R159). -/
theorem request_open_answer {src : Node} {tag name : Byte} {params : List Byte} {n : RequestName} {rule : State → Request → Act}
    {s t : State} {st : Status} {r : Results} (htakes : s.takes src params)
    (howner : s.mgmt.owner = some src → s.emitter.link = .normal ∧ s.mgmt.cached tag = none)
    (hopen : n.isOpen = true) (hbusy : n.takenWhileBusy = true) (hrule : rule s ⟨src, tag, name, params⟩ = .answer t st r) :
    request src tag name params (some n) rule s = .next (t.respond ⟨src, tag, name, params⟩ st r) := by
  have hjudge : s.takeRequest ⟨src, tag, name, params⟩ (some n) rule = s.judge ⟨src, tag, name, params⟩ (some n) rule := by
    obtain ⟨_, hstarted, _⟩ := htakes
    by_cases hsrc : s.mgmt.owner = some src
    · obtain ⟨hlink, htag⟩ := howner hsrc
      exact takeRequest_owner hstarted hsrc hlink htag
    · exact takeRequest_other hstarted hsrc
  rw [request_taken htakes, hjudge, judge_rule (.inr hopen) (.inr hbusy), hrule, Act.apply]

/-! ## The role, mode and key bytes (R184, R187) -/

/-- A known role byte names its bank (R2). -/
theorem readRole_accepted {b : Byte} (h : b = 1 ∨ b = 2) :
    ∃ r, readRole b = some r ∧ ∀ t : TableStore, t.role r = if b = 1 then t.active else t.staging := by
  obtain rfl | rfl := h
  · exact ⟨.active, rfl, fun _ => rfl⟩
  · exact ⟨.staging, rfl, fun _ => rfl⟩

theorem readRole_refused {b : Byte} (h : ¬(b = 1 ∨ b = 2)) : readRole b = none := by
  unfold readRole
  split
  next hone => exact absurd (.inl (by bv_omega)) h
  next htwo => exact absurd (.inr (by bv_omega)) h
  next => rfl

/-- The mode of a key, EXACT. -/
theorem readMode_exact (m p : Byte) : readMode 0 m p = (readPointKey m p).map .exact := rfl

/-- The mode NEXT: the head key is no point key, and stands for the place before the first key (R166). -/
theorem readMode_next (m p : Byte) :
    readMode 1 m p =
      if (m = 0 ∧ p = 255) ∨ (readPointKey m p).isSome = true then some (.next (readPointKey m p)) else none := by
  by_cases hhead : m = 0 ∧ p = 255
  · rw [if_pos (.inl hhead)]
    obtain ⟨rfl, rfl⟩ := hhead
    rfl
  · have hmode : readMode 1 m p = (readPointKey m p).map fun k => .next (some k) := if_neg (by simpa [isHeadKey] using hhead)
    simp only [hmode, hhead, false_or]
    cases readPointKey m p <;> rfl

theorem readMode_unknown {mode : Byte} (hexact : mode ≠ 0) (hnext : mode ≠ 1) (m p : Byte) : readMode mode m p = none := by
  unfold readMode
  split
  next h => exact absurd h (by bv_omega)
  next h => exact absurd h (by bv_omega)
  next => rfl

/-! ## The entry that is found (R18) -/

theorem Bank.read_exact (b : Bank) (k : PointKey) :
    b.read (.exact k) = b.entries.find? fun e => decide (some e.config.key = some k) := by
  simp only [Bank.read, Bank.entry?, Option.some.injEq]

theorem beyond_eq (cursor : Option PointKey) (k : PointKey) : beyond cursor k = decide (∀ c ∈ cursor, c.index < k.index) := by
  cases cursor <;> simp [beyond]

theorem Bank.read_next (b : Bank) (cursor : Option PointKey) :
    b.read (.next cursor) = b.entries.find? fun e => decide (∀ k ∈ cursor, k.index < e.config.key.index) := by
  simp only [Bank.read, Bank.nextEntry, beyond_eq, Bool.and_true]

/-- A mode with a key it accepts finds in a bank the entry of the key, or the first entry beyond it (R166). -/
theorem readMode_accepted {mode m p : Byte}
    (h : mode = 0 ∧ (readPointKey m p).isSome = true ∨ mode = 1 ∧ ((m = 0 ∧ p = 255) ∨ (readPointKey m p).isSome = true)) :
    ∃ md, readMode mode m p = some md ∧ ∀ b : Bank,
      b.read md =
        b.entries.find? fun e =>
          if mode = 0 then decide (some e.config.key = readPointKey m p)
          else decide (∀ k ∈ readPointKey m p, k.index < e.config.key.index) := by
  obtain ⟨rfl, hkey⟩ | ⟨rfl, hkey⟩ := h
  · obtain ⟨k, hk⟩ := Option.isSome_iff_exists.mp hkey
    refine ⟨.exact k, by rw [readMode_exact, hk]; rfl, fun b => ?_⟩
    simp only [b.read_exact, hk, if_true]
  · exact ⟨.next (readPointKey m p), by rw [readMode_next, if_pos hkey], fun b => b.read_next _⟩

theorem readMode_refused {mode m p : Byte}
    (h : ¬(mode = 0 ∧ (readPointKey m p).isSome = true ∨ mode = 1 ∧ ((m = 0 ∧ p = 255) ∨ (readPointKey m p).isSome = true))) :
    readMode mode m p = none := by
  by_cases hexact : mode = 0
  · subst hexact
    have hkey : readPointKey m p = none := by simpa using h
    rw [readMode_exact, hkey]
    rfl
  by_cases hnext : mode = 1
  · subst hnext
    rw [readMode_next, if_neg fun hkey => h (.inr ⟨rfl, hkey⟩)]
  · exact readMode_unknown hexact hnext m p

/-! ## The rules (R166, R167) -/

section
variable {s : State} {q : Request} {role mode m p st : Byte} {r : BankRole} {md : ReadMode}

/-- Its parameters are a role, a mode and a key of two bytes (R187). -/
theorem readEntryRule_length (hlength : q.params.length ≠ 4) : readEntryRule s q = .answer s .badRequest .none := by
  unfold readEntryRule
  split
  case h_1 hparams => exact absurd (congrArg List.length hparams) hlength
  case h_2 => rfl

theorem readEntryRule_range (hparams : q.params = [role, mode, m, p]) (hrange : readRole role = none ∨ readMode mode m p = none) :
    readEntryRule s q = .answer s .badRequest .none := by
  obtain hrole | hmode := hrange
  · simp only [readEntryRule, hparams, hrole]
  · cases hrole : readRole role <;> simp only [readEntryRule, hparams, hrole, hmode]

theorem readEntryRule_found (hparams : q.params = [role, mode, m, p]) (hrole : readRole role = some r)
    (hmode : readMode mode m p = some md) {e : Entry} (hread : (s.tables.role r).read md = some e) :
    readEntryRule s q = .answer s .done (.entry e) := by
  simp only [readEntryRule, hparams, hrole, hmode, hread]

theorem readEntryRule_absent (hparams : q.params = [role, mode, m, p]) (hrole : readRole role = some r)
    (hmode : readMode mode m p = some md) (hread : (s.tables.role r).read md = none) :
    readEntryRule s q = .answer s .noEntry .none := by
  simp only [readEntryRule, hparams, hrole, hmode, hread]

/-- Its parameters are a role and a station (R187). -/
theorem readModuleRule_length (hlength : q.params.length ≠ 2) : readModuleRule s q = .answer s .badRequest .none := by
  unfold readModuleRule
  split
  case h_1 hparams => exact absurd (congrArg List.length hparams) hlength
  case h_2 => rfl

theorem readModuleRule_range (hparams : q.params = [role, st]) (hrange : readRole role = none ∨ readStation st = none) :
    readModuleRule s q = .answer s .badRequest .none := by
  obtain hrole | hstation := hrange
  · simp only [readModuleRule, hparams, hrole]
  · cases hrole : readRole role <;> simp only [readModuleRule, hparams, hrole, hstation]

/-- The slot is answered listed or not (R167). -/
theorem readModuleRule_done (hparams : q.params = [role, st]) (hrole : readRole role = some r) {x : Station}
    (hstation : readStation st = some x) :
    readModuleRule s q = .answer s .done (.slot x ((s.tables.role r).slot? x)) := by
  simp only [readModuleRule, hparams, hrole, hstation]

end

/-! ## The requests -/

section
variable {s : State} {src : Node} {tag : Byte} {params : List Byte} {status : Status} {results : Results}

/-- READ-ENTRY from any node makes the response of its rule and nothing else. -/
theorem exec_readEntry (htakes : s.takes src params)
    (howner : s.mgmt.owner = some src → s.emitter.link = .normal ∧ s.mgmt.cached tag = none)
    (hrule : readEntryRule s ⟨src, tag, 4, params⟩ = .answer s status results) :
    exec (.readEntry src tag params) s = .next
      (if s.mgmt.owner = some src then s.answered src tag 4 status results
      else s.replied ⟨src, tag, 4, status, results, false⟩) := by
  rw [← respond_eq_ite s ⟨src, tag, 4, params⟩]
  exact request_open_answer (n := .readEntry) htakes howner rfl rfl hrule

/-- READ-MODULE from any node makes the response of its rule and nothing else. -/
theorem exec_readModule (htakes : s.takes src params)
    (howner : s.mgmt.owner = some src → s.emitter.link = .normal ∧ s.mgmt.cached tag = none)
    (hrule : readModuleRule s ⟨src, tag, 5, params⟩ = .answer s status results) :
    exec (.readModule src tag params) s = .next
      (if s.mgmt.owner = some src then s.answered src tag 5 status results
      else s.replied ⟨src, tag, 5, status, results, false⟩) := by
  rw [← respond_eq_ite s ⟨src, tag, 5, params⟩]
  exact request_open_answer (n := .readModule) htakes howner rfl rfl hrule

end

/-- Settles O32: each read by what its parameters name. -/
theorem readsOfTheTables : Obligations.ReadsOfTheTables := by
  intro s src tag params htakes howner answer
  refine ⟨?entry, fun hlength => ?entryLength, fun hlength => ?moduleLength, ?module⟩
  case entry =>
    intro role mode m p hparams
    split
    next haccepted =>
      obtain ⟨hroleOk, hmodeOk⟩ := haccepted
      obtain ⟨r, hrole, hbank⟩ := readRole_accepted hroleOk
      obtain ⟨md, hmode, hread⟩ := readMode_accepted hmodeOk
      dsimp only
      rw [← hbank, ← hread]
      cases hfound : (s.tables.role r).read md with
      | some e => exact exec_readEntry htakes howner (readEntryRule_found hparams hrole hmode hfound)
      | none => exact exec_readEntry htakes howner (readEntryRule_absent hparams hrole hmode hfound)
    next hrefused =>
      have hrange : readRole role = none ∨ readMode mode m p = none :=
        (not_and_or.mp hrefused).imp readRole_refused readMode_refused
      exact exec_readEntry htakes howner (readEntryRule_range hparams hrange)
  case entryLength => exact exec_readEntry htakes howner (readEntryRule_length hlength)
  case moduleLength => exact exec_readModule htakes howner (readModuleRule_length hlength)
  case module =>
    intro role st hparams
    cases hstation : readStation st with
    | none => exact exec_readModule htakes howner (readModuleRule_range hparams (.inr hstation))
    | some x =>
      dsimp only
      split_ifs with hactive hstaging
      · subst hactive
        exact exec_readModule htakes howner (readModuleRule_done (r := .active) hparams rfl hstation)
      · subst hstaging
        exact exec_readModule htakes howner (readModuleRule_done (r := .staging) hparams rfl hstation)
      · have hrole := readRole_refused (not_or.mpr ⟨hactive, hstaging⟩)
        exact exec_readModule htakes howner (readModuleRule_range hparams (.inl hrole))

end Sys2Proof.Machine
end

section
/-!
PROOFS. What a step can do, once and for all: the effects that commands are made of, each with the facts under which it comes about
(`Effect`), that every command is a sequence of them (`exec_effects`), and what follows for the laws that every step keeps
(`step_keeps`).
-/

namespace Sys2Proof.Machine

set_option Elab.async false

/-! ## The effects -/

/-- A report as its raiser hands it over: of no sweep, and with the counts of a new one (R58). -/
abbrev Claim.isNew (c : Claim) : Prop :=
  c.report.isSweep = false ∧ c.report.repeatCount = 1 ∧ c.report.lostBefore = 0

/-- The command is a frame on the T-port. -/
abbrev isTrunkFrame (c : Instr) : Prop := ∃ bytes pins, c = .tPortFrameReceived bytes pins

/-- The command carries a request of the name: the request command itself, or a frame on the T-port. -/
abbrev carries (c : Instr) (n : RequestName) : Prop := commandName c = some n ∨ isTrunkFrame c

/-- The command can lead to SCRUB. -/
abbrev entersScrub (c : Instr) : Prop :=
  (∃ pins, c = .endOfPinReset pins) ∨ (∃ src tag pins, c = .coldRestart src tag pins) ∨ isTrunkFrame c

/-- The effects that the command `c` can be made of, with what holds of the state when each comes about. -/
inductive Effect (c : Instr) (s : State) : State → Prop
  | pinReset : Effect c s s.pinReset
  | enterScrub (pins : Pins) (t : Option Sending) (f : Option (List Byte)) (hc : entersScrub c) :
      Effect c s (s.enterScrub pins t f)
  | trunkStarted (hpart : s.start.part = .scrub) : Effect c s (s.withStart s.start.trunkStarted)
  | loadBegins (hpart : s.start.part = .scrub) : Effect c s (s.withStart s.start.loadBegins)
  | readsOn (l : Loader) (hclasses : l.classes = s.start.loader.classes) (hsettings : l.settings = s.start.loader.settings) :
      Effect c s (s.setLoader l)
  | loadsClass (d : ReportClass) (x : ClassSetting) (hx : x.inRange) :
      Effect c s (s.setLoader { s.start.loader with classes := s.start.loader.classes.set d x })
  | loadsSettings (f : PartFields) (hf : f.inRange = true) :
      Effect c s (s.setLoader { s.start.loader with settings := f.apply s.start.loader.settings })
  | loadFails (reason : LoadFailure) (hpart : s.start.part = .loading) : Effect c s (s.loadFails reason)
  | loaded (hpart : s.start.part = .loading) (hlisted : s.tables.staging.firstUnlisted = none) :
      Effect c s
        ((((s.withEmitter (s.emitter.loaded s.start.loader.classes)).withTables
          { s.tables.commit s.start.loader.run with activity := s.tables.activity }).withMgmt
            { s.mgmt with owner := s.start.loader.preset }).withStart s.start.loaded)
  | stageEntry (x : EntryConfig) (hx : x.inRange) (hroom : s.tables.hasRoom x.key = true) :
      Effect c s (s.withTables (s.tables.stageEntry x))
  | stageModule (m : Station) (limit : Nat) (cls : ReportClass)
      (hx : 1 ≤ m.val ∧ 10 ≤ limit ∧ limit ≤ 2550 ∧ limit % 10 = 0) :
      Effect c s (s.withTables (s.tables.stageModule m limit cls))
  | unstageEntry (k : PointKey) : Effect c s (s.withTables (s.tables.setStaging (s.tables.staging.dropEntry k)))
  | unstageModule (m : Station) : Effect c s (s.withTables (s.tables.setStaging (s.tables.staging.dropSlot m)))
  | clearStaging : Effect c s (s.withTables s.tables.clearStaging)
  | begins (q : Request) (o : Operation) (a : Activity) (howner : s.mgmt.owner = some q.src) (hstarted : s.started = true)
      (hfree : s.finalWaits = false) (ha : a ≠ .idle) : Effect c s (s.begin q o a)
  | completeCopy (hactivity : s.tables.activity = .copying) : Effect c s s.completeCopy
  | refuseCommit (k : PointKey) (hactivity : s.tables.activity = .committing) : Effect c s (s.refuseCommit k)
  | completeCommit (hactivity : s.tables.activity = .committing) (hlisted : s.tables.staging.firstUnlisted = none) :
      Effect c s s.completeCommit
  | hold (hpart : s.start.part = .running) : Effect c s s.hold
  | release (hpart : s.start.part = .held) :
      Effect c s ((s.withTables s.tables.released).withStart { s.start.clearStartAlert s.emitter.link with part := .running })
  | hears (origin : Station) (items : List Item) :
      Effect c s (s.withTables (s.tables.setActive (s.bankAfterFrame origin items)))
  | silences (m : Station) :
      Effect c s (s.withTables (s.tables.setActive ((s.tables.active.setSlot m .silent .stopped).clearDebounce m)))
  | raises (cs : List Claim) (hnew : ∀ x ∈ cs, x.isNew) : Effect c s (s.raise cs)
  | noticeGiven : Effect c s (s.withStart { s.start with restartDue := false })
  | ports (p : Ports) (hup : p.up.length ≤ s.ports.up.length) (hdown : p.down.length ≤ s.ports.down.length)
      (hresponses : p.responses.Sublist s.ports.responses) : Effect c s (s.withPorts p)
  | pushUp (f : UpFrame) (hroom : s.ports.up.length < Config.fifoCapacity) : Effect c s (s.pushUp f)
  | pushDown (bytes : List Byte) (hroom : s.ports.down.length < Config.fifoCapacity) :
      Effect c s (s.withPorts { s.ports with down := s.ports.down ++ [bytes] })
  | pushResponse (r : Response) (hfinal : r.final = false) (hroom : s.requestResponses < Config.responseCapacity) :
      Effect c s (s.pushResponse r)
  | caches (tag : Byte) (content : CacheContent) (howner : s.mgmt.owner ≠ none) : Effect c s (s.setCache tag content)
  | freeValue (n : Nat) : Effect c s (s.withFreeCount n)
  | takeMark (n : Word) (hc : isTrunkFrame c) : Effect c s (s.takeMark n)
  | endDeaf : Effect c s s.endDeaf
  | changeOwner (o : Option Node) (hstarted : s.started = true) (hc : carries c .claim ∨ carries c .yieldOwnership) :
      Effect c s (s.changeOwner o)
  | sweepStarts (scope : Scope) (howner : s.mgmt.owner ≠ none) (hc : carries c .sweepStart) :
      Effect c s (s.withSweep (s.sweep.started scope))
  | sweepStops (hactive : s.sweep.state = .active) : Effect c s (s.withSweep { s.sweep with state := .stopping })
  | setsMark (arm : Option MarkArm) (refused : Bool) :
      Effect c s (s.withSweep { s.sweep with arm := arm, triggerRefused := refused })
  | setClass (d : ReportClass) (x : ClassSetting) (hx : x.inRange) : Effect c s (s.withEmitter (s.emitter.setClass d x))
  | setPart (f : PartFields) (hf : f.inRange = true) :
      Effect c s (s.withStart { s.start with settings := f.apply s.start.settings })
  | discard (d : ReportClass) : Effect c s (s.withQueue (s.queue.discard d))
  | acked (n : Nat) (hlink : s.emitter.link = .normal) (hc : carries c .ack) :
      Effect c s (s.withEmitter (s.emitter.acked s.start.settings.ackWait n))
  | warm (hc : carries c .restart) : Effect c s s.warm
  | flagOldest (o : Outstanding) (rest : List Outstanding) (hlist : s.emitter.outstanding = o :: rest)
      (hretry : o.retry < s.start.settings.retryLimit) (hdue : s.emitter.ackTimer.isDue = true) :
      Effect c s (s.withEmitter s.emitter.flagOldest)
  | goDeaf (hlist : s.emitter.outstanding ≠ []) : Effect c s s.goDeaf
  | hailDue (hlink : s.emitter.link = .deaf) :
      Effect c s
        (s.withEmitter { s.emitter with hailPending := true, hailTimer := .start s.start.settings.hailInterval })
  | hailSent : Effect c s (s.withEmitter { s.emitter with hailPending := false })
  | refilled (d : ReportClass) : Effect c s (s.withEmitter (s.emitter.refilled d))
  | copyEnds (n : Word) : Effect c s (s.withEmitter (s.emitter.copyEnds s.start.settings.ackWait n))
  | emits (owner : Node) (ch : Choice) (hoffer : s.reportOffer = some (owner, ch)) (hc : c = .transmitGrant) :
      Effect c s (s.emit owner ch)

/-- The effects of the command `c`, one after another. -/
abbrev Effects (c : Instr) : State → State → Prop := Relation.ReflTransGen (Effect c)

theorem Effect.one {c : Instr} {s t : State} (h : Effect c s t) : Effects c s t := .single h

/-- A command with an effect that is made of effects, if RESET is released, is made of them. -/
theorem whenReleased_effects {c : Instr} {s t : State} {f : State → State} (h : whenReleased s f = .next t)
    (hf : Effects c s (f s)) : Effects c s t := by
  obtain ⟨-, rfl⟩ | ⟨-, rfl⟩ := whenReleased_cases h
  · exact .refl
  · exact hf

end Sys2Proof.Machine
end

section
namespace Sys2Proof.Machine

set_option Elab.async false

/-! ## Reports raised -/

/-- A head report is a new one (R59). -/
theorem headReport_isNew {kind : Kind} (hkind : kind ≠ .sweep ∧ kind ≠ .sweepEnd) (cls : ReportClass) (cycle : Option Word) :
    Claim.isNew ⟨headReport kind cls cycle, false⟩ := by
  obtain ⟨hsweep, hend⟩ := hkind
  refine ⟨?_, rfl, rfl⟩
  cases kind <;> simp_all [Report.isSweep, headReport, newReport]

/-- A report of evaluation is a new one (R37). -/
theorem transitionClaim_isNew {e : Entry} {v : Word} {cycle : Option Word} {t : Transition} {x : Claim}
    (h : transitionClaim e v cycle t = some x) : x.isNew := by
  obtain ⟨-, -, hrepeat, hlost, -, hkind⟩ := transitionClaim_some h
  refine ⟨?_, hrepeat, hlost⟩
  obtain hk | hk | hk := hkind <;> simp [Report.isSweep, hk]

/-- Every report of a frame's items is a new one (R36). -/
theorem evaluateItems_isNew (origin : Station) (policy : UnlistedPolicy) (cycle : Option Word) (b : Bank) (items : List Item) :
    ∀ x ∈ (evaluateItems origin policy cycle b items).claims, x.isNew := by
  refine evaluateItems_induction (P := fun y => ∀ x ∈ y.claims, x.isNew) (by simp) fun y i hy => ?_
  simp only [Evaluation.item]
  split
  · split <;> exact hy
  · intro x hx
    obtain hx | hx := List.mem_append.mp hx
    · exact hy x hx
    · obtain ⟨t, -, ht⟩ := Option.bind_eq_some_iff.mp (Option.mem_toList.mp hx)
      exact transitionClaim_isNew ht

theorem evaluateFrame_isNew (s : State) (origin : Station) (items : List Item) :
    ∀ x ∈ (s.evaluateFrame origin items).claims, x.isNew := by
  simp only [State.evaluateFrame]
  split
  · split
    · exact evaluateItems_isNew _ _ _ _ _
    · cases s.start.settings.modulePolicy <;> simp
  · simp

theorem headClaim_isNew (s : State) {kind : Kind} (hkind : kind ≠ .sweep ∧ kind ≠ .sweepEnd) :
    ∀ x ∈ [s.headClaim kind], x.isNew := by
  simp only [List.mem_singleton, forall_eq]
  exact headReport_isNew hkind ..

theorem uplinkClaims_isNew (s : State) : ∀ x ∈ s.uplinkClaims, x.isNew := by
  simp only [State.uplinkClaims]
  split
  · exact headClaim_isNew s (by decide)
  · simp

theorem supervisorClaims_isNew (s : State) (origin : Station) : ∀ x ∈ s.supervisorClaims origin, x.isNew := by
  simp only [State.supervisorClaims, resumedClaim]
  split
  · split
    · simp only [List.mem_singleton, forall_eq]; exact ⟨rfl, rfl, rfl⟩
    · simp
  · simp

theorem forwardClaims_isNew (s : State) (items : List Item) : ∀ x ∈ s.forwardClaims items, x.isNew := by
  simp only [State.forwardClaims]
  split
  · simp
  · exact uplinkClaims_isNew s

theorem mem_interleave {place : Nat} {xs ys : List Claim} {x : Claim} : x ∈ interleave place xs ys ↔ x ∈ xs ∨ x ∈ ys := by
  simp only [interleave, List.mem_append]
  conv_rhs => rw [← List.take_append_drop (place % (ys.length + 1)) ys, List.mem_append]
  tauto

/-! ## Frames -/

section
variable {c : Instr}

theorem offerUp_effects (s : State) (f : UpFrame) : Effects c s (s.offerUp f) := by
  obtain ⟨hroom, h⟩ | ⟨-, h⟩ := offerUp_cases s f <;> rw [h]
  · exact (Effect.pushUp f hroom).one
  · exact (Effect.raises _ (uplinkClaims_isNew s)).one

theorem offerDown_effects (s : State) (bytes : List Byte) : Effects c s (s.offerDown bytes) := by
  obtain ⟨hroom, h⟩ | ⟨-, ⟨-, h⟩ | ⟨-, h⟩⟩ := offerDown_cases s bytes <;> rw [h]
  · exact (Effect.pushDown bytes hroom).one
  · exact (Effect.raises _ (headClaim_isNew s (by decide))).one

/-- The ports with the FIFOs and the responses as they were. -/
theorem ports_effects {s : State} {p : Ports} (hup : p.up = s.ports.up) (hdown : p.down = s.ports.down)
    (hresponses : p.responses = s.ports.responses) : Effects c s (s.withPorts p) :=
  (Effect.ports p (by rw [hup]) (by rw [hdown]) (by rw [hresponses])).one

/-- The tallies alone (R135). -/
theorem tally_effects (s : State) (fErrors fRefused tErrors tRefused : Nat) :
    Effects c s (s.withPorts { s.ports with fErrors := fErrors, fRefused := fRefused, tErrors := tErrors, tRefused := tRefused }) :=
  ports_effects rfl rfl rfl

theorem forward_effects (s : State) (origin : Station) (items : List Item) : Effects c s (s.forward origin items) := by
  simp only [State.forward]
  split
  · exact .refl
  · rename_i h
    exact (Effect.pushUp _ (by simpa [State.upRoom] using (not_or.mp h).2)).one

theorem takePoint_effects (s : State) (origin : Station) (items : List Item) : Effects c s (s.takePoint origin items) := by
  have hfirst : Effects c s ((s.withTables (s.tables.setActive (s.bankAfterFrame origin items))).forward origin
      (s.evaluateFrame origin items).kept) := (Effect.hears origin items).one.trans (forward_effects ..)
  have hsupervisor := supervisorClaims_isNew s origin
  have hothers : ∀ x ∈ (s.evaluateFrame origin items).claims ++ s.forwardClaims (s.evaluateFrame origin items).kept, x.isNew :=
    List.forall_mem_append.mpr ⟨evaluateFrame_isNew _ _ _, forwardClaims_isNew _ _⟩
  simp only [State.takePoint]
  split
  · exact hfirst.tail (.raises _ (List.forall_mem_append.mpr ⟨hsupervisor, hothers⟩))
  · exact (hfirst.tail (.raises _ fun x hx => (mem_interleave.mp hx).elim (hsupervisor x) (hothers x))).tail (.freeValue _)

theorem routeField_effects (s : State) (bytes : List Byte) (f : LinkFrame) : Effects c s (s.routeField bytes f) := by
  simp only [State.routeField]
  split_ifs
  · exact tally_effects ..
  · split
    · exact takePoint_effects ..
    · exact tally_effects ..
  · exact offerUp_effects ..
  · exact .refl

theorem scanMark_effects (s : State) (bytes : List Byte) (n : Word) (hc : isTrunkFrame c) : Effects c s (s.scanMark bytes n) := by
  simp only [State.scanMark]
  have htaken : Effects c s (s.takeMark n) := (Effect.takeMark n hc).one
  split
  · exact htaken.trans (offerDown_effects ..)
  · exact (htaken.tail (.raises _ (by simpa using headReport_isNew (by decide) ..))).tail (.freeValue _)

/-! ## Responses -/

/-- The response to a request that has a free place (R139, R163). -/
theorem respond_effects {s : State} (q : Request) (st : Status) (r : Results) (hroom : s.requestResponses < Config.responseCapacity) :
    Effects c s (s.respond q st r) := by
  have hreply : Effects c s (s.reply q st r) := (Effect.pushResponse _ rfl hroom).one
  simp only [State.respond]
  split
  · rename_i howner
    exact hreply.tail (.caches _ _ fun h => by cases h.symm.trans howner)
  · exact hreply

theorem repeatCached_effects {s : State} (q : Request) (content : CacheContent)
    (hroom : s.requestResponses < Config.responseCapacity) : Effects c s (s.repeatCached q content) := by
  cases content with
  | held r => exact (Effect.pushResponse _ rfl hroom).one
  | inProgress => exact .refl

/-- The restart notice, given if it is due (R179). -/
theorem noticeRestart_effects (s : State) : Effects c s s.noticeRestart := by
  simp only [State.noticeRestart]
  split
  · exact (Effect.raises [s.restartedClaim] (by simp only [List.mem_singleton, forall_eq]; exact ⟨rfl, rfl, rfl⟩)).one.tail .noticeGiven
  · exact .refl

/-! ## The rules of the requests -/

/-- What holds when a request's own rule is reached (R153). -/
structure Judged (s : State) (q : Request) (n : RequestName) : Prop where
  started : s.started = true
  room : s.requestResponses < Config.responseCapacity
  owner : n.isOpen = false → s.mgmt.owner = some q.src
  link : s.mgmt.owner = some q.src → s.emitter.link = .normal

/-- A rule's act is made of effects, and leaves the responses to the answer. -/
def Act.effects (c : Instr) (s : State) : Act → Prop
  | .answer t _ _ => Effects c s t ∧ t.ports = s.ports
  | .silent t => Effects c s t

theorem answer_effects {s t : State} {st : Status} {r : Results} (h : Effects c s t) (hports : t.ports = s.ports) :
    (Act.answer t st r).effects c s := ⟨h, hports⟩

/-- An answer that changes nothing. -/
theorem answer_unchanged (s : State) (st : Status) (r : Results) : (Act.answer s st r).effects c s := ⟨.refl, rfl⟩

theorem claimRule_effects {s : State} {q : Request} (hj : Judged s q .claim) (hc : carries c .claim) :
    (claimRule s q).effects c s := by
  have hchange : (claimed (s.changeOwner (some q.src)) q).effects c s :=
    answer_effects (Effect.changeOwner _ hj.started (.inl hc)).one (State.changeOwner_ports ..)
  simp only [claimRule]
  split
  · split
    · exact answer_unchanged ..
    · split
      · exact hchange
      · split_ifs
        · exact answer_unchanged ..
        · exact answer_unchanged ..
        · exact hchange
        · exact answer_unchanged ..
  · exact answer_unchanged ..

theorem yieldRule_effects {s : State} {q : Request} (hj : Judged s q .yieldOwnership) (hc : carries c .yieldOwnership) :
    (yieldRule s q).effects c s := by
  simp only [yieldRule]
  split
  · exact answer_effects (Effect.changeOwner _ hj.started (.inr hc)).one (State.changeOwner_ports ..)
  · exact answer_unchanged ..

theorem queryStatusRule_effects (s : State) (q : Request) : (queryStatusRule s q).effects c s := by
  simp only [queryStatusRule]
  split
  · exact answer_effects (Effect.freeValue _).one rfl
  · exact answer_unchanged ..

theorem readEntryRule_effects (s : State) (q : Request) : (readEntryRule s q).effects c s := by
  simp only [readEntryRule]
  repeat' split
  all_goals exact answer_unchanged ..

theorem readModuleRule_effects (s : State) (q : Request) : (readModuleRule s q).effects c s := by
  simp only [readModuleRule]
  repeat' split
  all_goals exact answer_unchanged ..

/-- The reader of entries checks every range (R118). -/
theorem readEntryConfig_inRange {l : List Byte} {x : EntryConfig} (h : readEntryConfig l = some x) : x.inRange := by
  unfold readEntryConfig at h
  split at h
  · split at h
    · rename_i hkey htest _ _
      split at h
      · rename_i hrange
        cases h
        refine ⟨readPointKey_pos hkey, ?_, hrange.1, hrange.2.1⟩
        unfold readTest at htest
        repeat' split at htest
        all_goals cases htest
        · rfl
        · rename_i hle _ _; exact decide_eq_true hle
        · rename_i hle _ _; exact decide_eq_true hle
      · cases h
    · cases h
  · cases h

/-- The reader of module listings checks every range (R120). -/
theorem readModuleListing_inRange {l : List Byte} {m : Station} {limit : Nat} {cls : ReportClass}
    (h : readModuleListing l = some (m, limit, cls)) : 1 ≤ m.val ∧ 10 ≤ limit ∧ limit ≤ 2550 ∧ limit % 10 = 0 := by
  unfold readModuleListing at h
  split at h
  · split at h
    · rename_i hstation _
      dsimp only at h
      split at h
      · rename_i hlimit
        cases h
        exact ⟨readStation_pos hstation, hlimit⟩
      · cases h
    · cases h
  · cases h

/-- The reader of class settings checks every range (R86). -/
theorem readClassSetting_inRange {l : List Byte} {d : ReportClass} {x : ClassSetting} (h : readClassSetting l = some (d, x)) :
    x.inRange := by
  unfold readClassSetting at h
  split at h
  · split at h
    · split at h
      · rename_i hlimit
        cases h
        exact ⟨hlimit.1, hlimit.2, by dsimp only; omega⟩
      · cases h
    · cases h
  · cases h

/-- The reader of part settings checks every range (R168). -/
theorem readPartParams_inRange {l : List Byte} {f : PartFields} (h : readPartParams l = some f) : f.inRange = true := by
  unfold readPartParams at h
  split at h
  · cases h
  · split at h
    · dsimp only at h
      split at h
      · rename_i hrange; cases h; exact hrange
      · cases h
    · cases h

theorem stageEntryRule_effects (s : State) (q : Request) : (stageEntryRule s q).effects c s := by
  simp only [stageEntryRule]
  split
  · exact answer_unchanged ..
  · rename_i x hread
    split
    · rename_i hroom
      exact answer_effects (Effect.stageEntry x (readEntryConfig_inRange hread) hroom).one rfl
    · exact answer_unchanged ..

theorem unstageEntryRule_effects (s : State) (q : Request) : (unstageEntryRule s q).effects c s := by
  simp only [unstageEntryRule]
  split
  · split
    · exact answer_unchanged ..
    · split
      · exact answer_unchanged ..
      · exact answer_effects (Effect.unstageEntry _).one rfl
  · exact answer_unchanged ..

theorem stageModuleRule_effects (s : State) (q : Request) : (stageModuleRule s q).effects c s := by
  simp only [stageModuleRule]
  split
  · exact answer_unchanged ..
  · rename_i hread
    exact answer_effects (Effect.stageModule _ _ _ (readModuleListing_inRange hread)).one rfl

theorem unstageModuleRule_effects (s : State) (q : Request) : (unstageModuleRule s q).effects c s := by
  simp only [unstageModuleRule]
  split
  · split
    · exact answer_unchanged ..
    · exact answer_effects (Effect.unstageModule _).one rfl
  · exact answer_unchanged ..

theorem clearStagingRule_effects (s : State) (q : Request) : (clearStagingRule s q).effects c s := by
  simp only [clearStagingRule]
  split
  · exact answer_effects Effect.clearStaging.one rfl
  · exact answer_unchanged ..

theorem operationRule_effects {s : State} {q : Request} {o : Operation} {a : Activity} (ha : a ≠ .idle)
    (hstarted : s.started = true) (howner : s.mgmt.owner = some q.src) : (operationRule o a s q).effects c s := by
  simp only [operationRule]
  split
  · split
    · exact answer_unchanged ..
    · rename_i hfree
      exact (Effect.begins q o a howner hstarted (by simpa using hfree) ha).one
  · exact answer_unchanged ..

theorem setClassRule_effects (s : State) (q : Request) : (setClassRule s q).effects c s := by
  simp only [setClassRule]
  split
  · rename_i hread
    exact answer_effects (Effect.setClass _ _ (readClassSetting_inRange hread)).one rfl
  · exact answer_unchanged ..

theorem setPartRule_effects (s : State) (q : Request) : (setPartRule s q).effects c s := by
  simp only [setPartRule]
  split
  · rename_i hread
    exact answer_effects (Effect.setPart _ (readPartParams_inRange hread)).one rfl
  · exact answer_unchanged ..

theorem discardClassRule_effects (s : State) (q : Request) : (discardClassRule s q).effects c s := by
  simp only [discardClassRule]
  split
  · split
    · exact answer_effects (Effect.discard _).one rfl
    · exact answer_unchanged ..
  · exact answer_unchanged ..

theorem ackRule_effects {s : State} {q : Request} (hj : Judged s q .ack) (hc : carries c .ack) : (ackRule s q).effects c s := by
  simp only [ackRule]
  split
  · split
    · exact answer_effects (Effect.acked _ (hj.link (hj.owner rfl)) hc).one rfl
    · exact answer_unchanged ..
  · exact answer_unchanged ..

theorem sweepStartRule_effects {s : State} {q : Request} (hj : Judged s q .sweepStart) (hc : carries c .sweepStart) :
    (sweepStartRule s q).effects c s := by
  simp only [sweepStartRule]
  split
  · split
    · exact answer_unchanged ..
    · split
      · exact answer_effects (Effect.sweepStarts _ (by simp [hj.owner rfl]) hc).one rfl
      all_goals exact answer_unchanged ..
  · exact answer_unchanged ..

theorem sweepStopRule_effects (s : State) (q : Request) : (sweepStopRule s q).effects c s := by
  simp only [sweepStopRule]
  split
  · split
    · rename_i hactive
      exact answer_effects (Effect.sweepStops hactive).one rfl
    all_goals exact answer_unchanged ..
  · exact answer_unchanged ..

theorem armMarkRule_effects (s : State) (q : Request) : (armMarkRule s q).effects c s := by
  simp only [armMarkRule]
  split
  · split
    · exact answer_unchanged ..
    · exact answer_effects (Effect.setsMark _ _).one rfl
  · exact answer_unchanged ..

theorem disarmMarkRule_effects (s : State) (q : Request) : (disarmMarkRule s q).effects c s := by
  simp only [disarmMarkRule]
  split
  · exact answer_effects (Effect.setsMark none s.sweep.triggerRefused).one rfl
  · exact answer_unchanged ..

theorem holdRule_effects (s : State) (q : Request) : (holdRule s q).effects c s := by
  simp only [holdRule]
  split
  · split
    · rename_i hpart
      exact answer_effects (Effect.hold ((isRunning_iff s).mp hpart)).one rfl
    · exact answer_unchanged ..
  · exact answer_unchanged ..

theorem releaseRule_effects (s : State) (q : Request) : (releaseRule s q).effects c s := by
  simp only [releaseRule]
  split
  · split
    · rename_i hpart
      exact answer_effects ((Effect.release hpart).one.trans (noticeRestart_effects _)) (State.noticeRestart_ports _)
    · exact answer_unchanged ..
  · exact answer_unchanged ..

theorem warmRule_effects {s : State} {q : Request} (hj : Judged s q .restart) (hc : carries c .restart) :
    (warmRule s q).effects c s := (respond_effects q .done .none hj.room).tail (.warm hc)

theorem coldRule_effects (s : State) (q : Request) (pins : Pins) (hc : entersScrub c) : (coldRule pins s q).effects c s :=
  (Effect.enterScrub _ _ _ hc).one

theorem restartRule_effects {s : State} {q : Request} (pins : Pins) (hj : Judged s q .restart) (hc : isTrunkFrame c) :
    (restartRule pins s q).effects c s := by
  simp only [restartRule]
  split
  · split
    · exact warmRule_effects hj (.inr hc)
    · exact coldRule_effects s q pins (.inr (.inr hc))
    · exact answer_unchanged ..
  · exact answer_unchanged ..

/-- The rule of each name but RESTART is made of effects. -/
theorem ruleOf_effects {s : State} {q : Request} (pins : Pins) {n : RequestName} (hn : n ≠ .restart) (hj : Judged s q n)
    (hc : carries c n) : (ruleOf pins n s q).effects c s := by
  cases n with
  | claim => exact claimRule_effects hj hc
  | yieldOwnership => exact yieldRule_effects hj hc
  | queryStatus => exact queryStatusRule_effects ..
  | readEntry => exact readEntryRule_effects ..
  | readModule => exact readModuleRule_effects ..
  | stageEntry => exact stageEntryRule_effects ..
  | unstageEntry => exact unstageEntryRule_effects ..
  | stageModule => exact stageModuleRule_effects ..
  | unstageModule => exact unstageModuleRule_effects ..
  | clearStaging => exact clearStagingRule_effects ..
  | copyActive => exact operationRule_effects (by decide) hj.started (hj.owner rfl)
  | commit => exact operationRule_effects (by decide) hj.started (hj.owner rfl)
  | setClass => exact setClassRule_effects ..
  | setPart => exact setPartRule_effects ..
  | discardClass => exact discardClassRule_effects ..
  | ack => exact ackRule_effects hj hc
  | sweepStart => exact sweepStartRule_effects hj hc
  | sweepStop => exact sweepStopRule_effects ..
  | armMark => exact armMarkRule_effects ..
  | disarmMark => exact disarmMarkRule_effects ..
  | hold => exact holdRule_effects ..
  | release => exact releaseRule_effects ..
  | restart => exact absurd rfl hn

/-- The rule of a request command is made of effects. -/
theorem commandRule_effects {s : State} {q : Request} {n : RequestName} (hname : commandName c = some n) (hj : Judged s q n) :
    (commandRule c s q).effects c s := by
  have hc : carries c n := .inl hname
  cases c <;> cases hname
  case warmRestart => exact warmRule_effects hj hc
  case coldRestart => exact coldRule_effects s q _ (.inr (.inl ⟨_, _, _, rfl⟩))
  all_goals exact ruleOf_effects (s := s) (q := q) ⟨0, .trunk⟩ (by decide) hj hc

/-! ## Taking a request -/

theorem apply_effects {s : State} {q : Request} {a : Act} (ha : a.effects c s)
    (hroom : s.requestResponses < Config.responseCapacity) : Effects c s (a.apply q) := by
  cases a with
  | answer t st r =>
    obtain ⟨ht, hports⟩ := ha
    exact ht.trans (respond_effects q st r (by rw [State.requestResponses, hports]; exact hroom))
  | silent t => exact ha

/-- A request judged: a refusal, or its rule (R153). -/
theorem judge_effects {s : State} {q : Request} {name : Option RequestName} {rule : State → Request → Act}
    (hstarted : s.started = true) (hroom : s.requestResponses < Config.responseCapacity)
    (hlink : s.mgmt.owner = some q.src → s.emitter.link = .normal)
    (hrule : ∀ n, name = some n → Judged s q n → (rule s q).effects c s) : Effects c s (s.judge q name rule) := by
  cases name with
  | none => exact respond_effects _ _ _ hroom
  | some n =>
    simp only [State.judge]
    split_ifs with howner
    · exact respond_effects _ _ _ hroom
    · exact respond_effects _ _ _ hroom
    · refine apply_effects (hrule n rfl ⟨hstarted, hroom, fun hopen => ?_, hlink⟩) hroom
      by_contra hne
      exact howner ⟨hne, hopen⟩

theorem endDeaf_started (s : State) : s.endDeaf.started = s.started := by
  cases h : s.emitter.link
  · rw [endDeaf_normal h]
  · rw [endDeaf_deaf h]; rfl

theorem endDeaf_requestResponses (s : State) : s.endDeaf.requestResponses = s.requestResponses := by
  rw [State.requestResponses, State.endDeaf_ports, State.requestResponses]

/-- A request handed over is refused, not ready, repeated, or judged (R139, R153). -/
theorem handRequest_effects {s : State} {q : Request} {name : Option RequestName} {rule : State → Request → Act}
    (hrule : ∀ t n, name = some n → Judged t q n → (rule t q).effects c t) : Effects c s (s.handRequest q name rule) := by
  simp only [State.handRequest]
  split
  · rename_i hroom
    cases hstarted : s.started
    · rw [takeRequest_notReady hstarted]
      exact (Effect.pushResponse _ rfl hroom).one
    · by_cases howner : s.mgmt.owner = some q.src
      · have hroom' : s.endDeaf.requestResponses < Config.responseCapacity := by rwa [endDeaf_requestResponses]
        refine Effect.endDeaf.one.trans ?_
        rw [takeRequest_ofOwner hstarted howner]
        split
        · exact repeatCached_effects _ _ hroom'
        · exact judge_effects (by rwa [endDeaf_started]) hroom' (fun _ => endDeaf_link s) (hrule _)
      · rw [takeRequest_other hstarted howner]
        exact judge_effects hstarted hroom (fun h => absurd h howner) (hrule _)
  · exact tally_effects ..

theorem requestFrame_effects (s : State) (pins : Pins) (q : Request) (hc : isTrunkFrame c) :
    Effects c s (s.requestFrame pins q) := by
  refine handRequest_effects fun t n hn hj => ?_
  rw [hn]
  by_cases hrestart : n = .restart
  · subst hrestart; exact restartRule_effects pins hj hc
  · exact ruleOf_effects pins hrestart hj (.inr hc)

theorem routeTrunk_effects (s : State) (pins : Pins) (bytes : List Byte) (f : LinkFrame) (hc : isTrunkFrame c) :
    Effects c s (s.routeTrunk pins bytes f) := by
  simp only [State.routeTrunk]
  split
  · split
    · exact requestFrame_effects _ _ _ hc
    · exact tally_effects ..
  · split
    · split
      · exact scanMark_effects _ _ _ hc
      · exact tally_effects ..
    · split_ifs
      · exact tally_effects ..
      · exact offerDown_effects ..
      · exact .refl

/-- A request command. -/
theorem exec_request_effects {q : Request} (hq : commandRequest c = some q) {s t : State} (h : exec c s = .next t) :
    Effects c s t := by
  rw [exec_request hq] at h
  refine whenReleased_effects h ?_
  split
  · exact handRequest_effects fun t n hn hj => commandRule_effects hn hj
  · exact tally_effects ..

end

/-! ## The image load -/

/-- A record's content is in its ranges (R176). -/
def ImageRecord.inRange : ImageRecord → Prop
  | .pointEntry x => x.inRange
  | .moduleEntry m limit _ => 1 ≤ m.val ∧ 10 ≤ limit ∧ limit ≤ 2550 ∧ limit % 10 = 0
  | .classSetting _ x => x.inRange
  | .partSetting f => f.inRange = true

theorem readRecordContent_inRange {kind : Byte} {content : List Byte} {r : ImageRecord}
    (h : readRecordContent kind content = .ok r) : r.inRange := by
  unfold readRecordContent at h
  split at h <;> split at h <;> cases h <;> rename_i hread
  · exact readEntryConfig_inRange hread
  · exact readModuleListing_inRange hread
  · exact readClassSetting_inRange hread
  · exact readPartParams_inRange hread

theorem readRecord_inRange {answer : List Byte} {r : ImageRecord} {bytes : List Byte} (h : readRecord answer = .ok (r, bytes)) :
    r.inRange := by
  unfold readRecord at h
  repeat' split at h
  all_goals cases h
  rename_i hcontent
  exact readRecordContent_inRange hcontent

theorem recordsLeft_some {s : State} {left : Nat} (h : s.recordsLeft = some left) :
    s.start.part = .loading ∧ s.start.loader.phase = .records left := by
  unfold State.recordsLeft at h
  split at h
  · rename_i hpart
    split at h
    · rename_i hphase; cases h; exact ⟨hpart, hphase⟩
    · cases h
  · cases h

section
variable {c : Instr}

theorem applyRecord_effects {s : State} {r : ImageRecord} (hr : r.inRange) (hroom : s.recordOverflows r = false) :
    Effects c s (s.applyRecord r) := by
  cases r with
  | pointEntry x => exact (Effect.stageEntry x hr (by simpa [State.recordOverflows] using hroom)).one
  | moduleEntry m limit cls => exact (Effect.stageModule m limit cls hr).one
  | classSetting d x => exact (Effect.loadsClass d x hr).one
  | partSetting f => exact (Effect.loadsSettings f hr).one

theorem finishLoad_effects {s : State} (w : Word) (hpart : s.start.part = .loading) : Effects c s (s.finishLoad w) := by
  simp only [State.finishLoad]
  split
  · exact (Effect.loadFails _ hpart).one
  · split
    · exact (Effect.loadFails _ hpart).one
    · rename_i hlisted
      have hloaded := (Effect.loaded (c := c) hpart hlisted).one
      simp only [State.loadSucceeds]
      split
      · exact hloaded.trans (noticeRestart_effects _)
      · exact hloaded

theorem reads_iff (s : State) (p : LoadPhase) : s.reads p = true ↔ s.start.part = .loading ∧ s.start.loader.phase = p := by
  simp [State.reads]

theorem readsOn_effects {s : State} {l : Loader} (hclasses : l.classes = s.start.loader.classes)
    (hsettings : l.settings = s.start.loader.settings) : Effects c s (s.setLoader l) := (Effect.readsOn l hclasses hsettings).one

/-! ## The commands -/

theorem imageHeaderRead_effects {s t : State} {answer : List Byte} (h : execImageHeaderRead answer s = .next t) : Effects c s t := by
  refine whenReleased_effects h ?_
  split
  · rename_i hreads
    split
    · exact readsOn_effects rfl rfl
    · exact (Effect.loadFails _ ((reads_iff ..).mp hreads).1).one
  · exact .refl

theorem imageRecordRead_effects {s t : State} {answer : List Byte} (h : execImageRecordRead answer s = .next t) : Effects c s t := by
  refine whenReleased_effects h ?_
  split
  · exact .refl
  · rename_i hleft
    obtain ⟨hpart, -⟩ := recordsLeft_some hleft
    split
    · exact (Effect.loadFails _ hpart).one
    · rename_i hread
      split
      · exact (Effect.loadFails _ hpart).one
      · rename_i hroom
        exact (applyRecord_effects (readRecord_inRange hread) (by simpa using hroom)).trans (readsOn_effects rfl rfl)

theorem imageCrcRead_effects {s t : State} {answer : List Byte} (h : execImageCrcRead answer s = .next t) : Effects c s t := by
  refine whenReleased_effects h ?_
  split
  · rename_i hreads
    obtain ⟨hpart, -⟩ := (reads_iff ..).mp hreads
    split
    · exact finishLoad_effects _ hpart
    · exact (Effect.loadFails _ hpart).one
  · exact .refl

theorem endOfScrub_effects {s t : State} (h : execEndOfScrub s = .next t) : Effects c s t := by
  refine whenReleased_effects h ?_
  split
  · rename_i hpart
    split
    · exact (Effect.trunkStarted hpart).one
    · exact (Effect.loadBegins hpart).one
  · exact .refl

theorem silenceExpiry_effects {s t : State} {m : Station} (h : execSilenceExpiry m s = .next t) : Effects c s t := by
  refine whenReleased_effects h ?_
  split
  · refine (Effect.silences _).one.tail (.raises _ ?_)
    simp only [List.mem_singleton, forall_eq]
    exact ⟨rfl, rfl, rfl⟩
  · exact .refl

theorem ackWaitExpiry_effects {s t : State} (h : execAckWaitExpiry s = .next t) : Effects c s t := by
  refine whenReleased_effects h ?_
  split
  · rename_i hdue
    simp only [State.ackExpired]
    split
    · exact .refl
    · rename_i o rest hlist
      split
      · rename_i hretry; exact (Effect.flagOldest o rest hlist hretry hdue).one
      · exact (Effect.goDeaf (by simp [hlist])).one
  · exact .refl

theorem hailExpiry_effects {s t : State} (h : execHailExpiry s = .next t) : Effects c s t := by
  refine whenReleased_effects h ?_
  split
  · rename_i hexpires
    simp only [State.hailExpires, Bool.and_eq_true, decide_eq_true_eq] at hexpires
    exact (Effect.hailDue hexpires.1).one
  · exact .refl

theorem refillExpiry_effects {s t : State} {d : ReportClass} (h : execRefillExpiry d s = .next t) : Effects c s t := by
  refine whenReleased_effects h ?_
  split
  · exact (Effect.refilled d).one
  · exact .refl

/-- A frame of the part's own granted (R149): the ports' transmitter and sequence alone. -/
theorem send_effects (s : State) (dest : Node) (kind : OwnKind) (payload : List Byte) (report : Option Word) :
    Effects c s (s.send dest kind payload report) := ports_effects rfl rfl rfl

theorem setMark_effects (s : State) (m : AlternationMark) : Effects c s (s.setMark m) :=
  ports_effects rfl rfl rfl

theorem sendUp_effects (s : State) (f : UpFrame) : Effects c s (s.sendUp f) := by
  cases f with
  | rebuilt dest origin items => exact send_effects ..
  | passed bytes => exact ports_effects rfl rfl rfl

theorem grant_effects {s : State} {g : Grant} (hg : s.nextGrant = some g) (hc : c = .transmitGrant) :
    Effects c s (s.grant g) := by
  obtain ⟨r, rest, -, rfl⟩ | ⟨-, ⟨owner, ch, hoffer, rfl⟩ | ⟨f, rest, -, rfl⟩ | ⟨-, hhail⟩⟩ := nextGrant_cases hg
  · exact (Effect.ports { s.ports with responses := s.ports.responses.tail } le_rfl le_rfl (List.tail_sublist _)).one.trans
      (send_effects ..)
  · have hemit := (Effect.emits owner ch hoffer hc).one
    simp only [State.grant]
    split
    · exact hemit
    · exact hemit.trans (setMark_effects ..)
  · exact (Effect.ports { s.ports with up := s.ports.up.tail } (by simp) le_rfl (List.Sublist.refl _)).one.trans
      ((sendUp_effects _ f).trans (setMark_effects ..))
  · obtain ⟨-, -, owner, o, rest, -, -, rfl⟩ := hailOffer_some hhail
    exact Effect.hailSent.one.trans (send_effects ..)

theorem transmitGrant_effects {s t : State} (h : execTransmitGrant s = .next t) (hc : c = .transmitGrant) : Effects c s t := by
  refine whenReleased_effects h ?_
  split
  · rename_i hg; exact grant_effects hg hc
  · exact .refl

theorem tPortFrameEnd_effects {s t : State} (h : execTPortFrameEnd s = .next t) : Effects c s t := by
  refine whenReleased_effects h ?_
  split
  · exact .refl
  · have hfreed : Effects c s (s.withPorts { s.ports with tSending := none }) := ports_effects rfl rfl rfl
    split
    · exact hfreed
    · exact hfreed.tail (.copyEnds _)

theorem fPortTransmitStart_effects {s t : State} (h : execFPortTransmitStart s = .next t) : Effects c s t := by
  refine whenReleased_effects h ?_
  split
  · rename_i hdown
    refine (Effect.ports _ ?_ ?_ ?_).one <;> simp [hdown]
  · exact .refl

theorem fPortTransmitEnd_effects {s t : State} (h : execFPortTransmitEnd s = .next t) : Effects c s t :=
  whenReleased_effects h (ports_effects rfl rfl rfl)

theorem fPortFrameReceived_effects {s t : State} {bytes : List Byte} (h : execFPortFrameReceived bytes s = .next t) :
    Effects c s t := by
  refine whenReleased_effects h ?_
  split
  · exact routeField_effects ..
  · exact tally_effects ..

theorem tPortFrameReceived_effects {s t : State} {bytes : List Byte} {pins : Pins}
    (h : execTPortFrameReceived bytes pins s = .next t) (hc : isTrunkFrame c) : Effects c s t := by
  refine whenReleased_effects h ?_
  split
  · exact routeTrunk_effects _ _ _ _ hc
  · exact tally_effects ..

theorem copyActiveCompletion_effects {s t : State} (h : execCopyActiveCompletion s = .next t) : Effects c s t := by
  refine whenReleased_effects h ?_
  split
  · rename_i hactivity; exact (Effect.completeCopy hactivity).one
  · exact .refl

theorem commitRefusal_effects {s t : State} (h : execCommitRefusal s = .next t) : Effects c s t := by
  refine whenReleased_effects h ?_
  split
  · rename_i hactivity
    split
    · exact (Effect.refuseCommit _ hactivity).one
    · exact .refl
  · exact .refl

theorem commitCompletion_effects {s t : State} (h : execCommitCompletion s = .next t) : Effects c s t := by
  refine whenReleased_effects h ?_
  split
  · rename_i hdue; exact (Effect.completeCommit hdue.1 hdue.2).one
  · exact .refl

end

/-- Every command is made of effects. -/
theorem exec_effects {c : Instr} {s t : State} (h : exec c s = .next t) : Effects c s t := by
  cases hq : commandRequest c with
  | some q => exact exec_request_effects hq h
  | none =>
    cases c <;> simp only [commandRequest, reduceCtorEq] at hq
    case pinReset => cases h; exact Effect.pinReset.one
    case endOfPinReset pins => cases h; exact Effect.pinReset.one.tail (.enterScrub _ _ _ (.inl ⟨pins, rfl⟩))
    case endOfScrub => exact endOfScrub_effects h
    case imageHeaderRead => exact imageHeaderRead_effects h
    case imageRecordRead => exact imageRecordRead_effects h
    case imageCrcRead => exact imageCrcRead_effects h
    case fPortFrameReceived => exact fPortFrameReceived_effects h
    case tPortFrameReceived bytes pins => exact tPortFrameReceived_effects h ⟨bytes, pins, rfl⟩
    case copyActiveCompletion => exact copyActiveCompletion_effects h
    case commitRefusal => exact commitRefusal_effects h
    case commitCompletion => exact commitCompletion_effects h
    case silenceExpiry => exact silenceExpiry_effects h
    case ackWaitExpiry => exact ackWaitExpiry_effects h
    case hailExpiry => exact hailExpiry_effects h
    case refillExpiry => exact refillExpiry_effects h
    case transmitGrant => exact transmitGrant_effects h rfl
    case tPortFrameEnd => exact tPortFrameEnd_effects h
    case fPortTransmitStart => exact fPortTransmitStart_effects h
    case fPortTransmitEnd => exact fPortTransmitEnd_effects h

/-- What every effect and the passing of a millisecond keep, and what does not read the queue of commands, every step keeps. -/
theorem step_keeps {P : State → Prop} (hpending : ∀ s l, P s → P (s.withPending l)) (htick : ∀ s, P s → P s.tick)
    (heffect : ∀ c s t, Effect c s t → P s → P t) (s t : State) (hs : P s) (h : step s = .next t) : P t := by
  simp only [step] at h
  split at h
  · rename_i c rest _
    have heffects := exec_effects h
    clear h
    induction heffects with
    | refl => exact hpending s rest hs
    | tail _ he ih => exact heffect _ _ _ he ih
  · simp only [State.idle] at h
    split at h <;> cases h
    · exact htick s hs
    · exact hpending s _ hs

end Sys2Proof.Machine
end

section
/-!
PROOFS. The tables stay sound (R4, R12, R15, R17): what each operation on a bank keeps, then each effect.
-/

namespace Sys2Proof.Machine

set_option Elab.async false

/-! ## A bank -/

/-- A bank in canonical form whose run states obey R12. -/
abbrev Bank.legal (b : Bank) : Prop := b.canonical ∧ ∀ e ∈ b.entries, e.run.consistent e.config.confirm

/-- Every entry's module is listed (R17). -/
abbrev Bank.closed (b : Bank) : Prop := ∀ e ∈ b.entries, b.lists e.config.key.station = true

/-- The soundness of the tables by the roles of the two banks. -/
theorem tables_sound_iff (t : TableStore) : t.sound ↔ t.active.legal ∧ t.staging.legal ∧ t.active.closed := by
  have hcanonical := t.banks_iff fun b => b.canonical
  have hconsistent := t.banks_iff fun b => ∀ e ∈ b.entries, e.run.consistent e.config.confirm
  rw [TableStore.sound, List.forall_mem_append, hconsistent, ← and_assoc, hcanonical]
  tauto

theorem emptied_consistent {confirm : Nat} (h : 1 ≤ confirm) : RunState.emptied.consistent confirm :=
  ⟨by simp [RunState.emptied], by simp [RunState.emptied], h, by simp [RunState.emptied]⟩

theorem cleared_consistent (r : RunState) {confirm : Nat} (h : 1 ≤ confirm) : r.cleared.consistent confirm :=
  ⟨by simp [RunState.cleared], by simp [RunState.cleared], h, by simp [RunState.cleared]⟩

theorem debounceCleared_consistent (r : RunState) {confirm : Nat} (h : 1 ≤ confirm) : r.debounceCleared.consistent confirm :=
  ⟨by simp [RunState.debounceCleared], by simp [RunState.debounceCleared], h, by simp [RunState.debounceCleared]⟩

/-- A run state that is carried to another confirm count is fitted to it (R12). -/
theorem fitted_consistent {r : RunState} {old confirm : Nat} (hr : r.consistent old) (h : 1 ≤ confirm) :
    (r.fitted confirm).consistent confirm := by
  obtain ⟨hnone, hcandidate, -, hfaulted⟩ := hr
  simp only [RunState.fitted]
  split
  · rename_i hlt; exact ⟨hnone, hcandidate, hlt, hfaulted⟩
  · exact debounceCleared_consistent r h

theorem legal_empty : Bank.empty.legal := ⟨Bank.canonical_empty, by simp [Bank.empty]⟩

theorem confirm_pos {b : Bank} (h : b.legal) {e : Entry} (he : e ∈ b.entries) : 1 ≤ e.config.confirm := by
  obtain ⟨⟨-, -, -, hrange, -⟩, -⟩ := h
  exact (hrange e he).2.2.1

theorem legal_mapRuns {b : Bank} (h : b.legal) {f : Entry → RunState}
    (hf : ∀ e ∈ b.entries, (f e).consistent e.config.confirm) : (b.mapRuns f).legal := by
  refine ⟨Bank.canonical_mapRuns h.1 f, fun e he => ?_⟩
  obtain ⟨x, hx, rfl⟩ := List.mem_map.mp he
  exact hf x hx

theorem legal_mapSlots {b : Bank} (h : b.legal) (f : Slot → ModuleState × Timer) : (b.mapSlots f).legal :=
  ⟨Bank.canonical_mapSlots h.1 f, h.2⟩

theorem legal_clearRuns {b : Bank} (h : b.legal) : b.clearRuns.legal :=
  legal_mapRuns h fun _ he => cleared_consistent _ (confirm_pos h he)

theorem legal_clearDebounce {b : Bank} (h : b.legal) (m : Station) : (b.clearDebounce m).legal := by
  refine legal_mapRuns h fun e he => ?_
  split
  · exact debounceCleared_consistent _ (confirm_pos h he)
  · exact h.2 e he

theorem legal_copied {b : Bank} (h : b.legal) : b.copied.legal :=
  legal_mapSlots (legal_mapRuns h fun _ he => emptied_consistent (confirm_pos h he)) _

theorem legal_setRun {b : Bank} (h : b.legal) {k : PointKey} {r : RunState}
    (hr : ∀ e ∈ b.entries, e.config.key = k → r.consistent e.config.confirm) : (b.setRun k r).legal := by
  refine legal_mapRuns h fun e he => ?_
  split
  · rename_i hk; exact hr e he hk
  · exact h.2 e he

theorem legal_putEntry {b : Bank} (h : b.legal) {x : EntryConfig} (hx : x.inRange)
    (hroom : (b.entry? x.key).isSome = true ∨ b.entries.length < Config.tableCapacity) : (b.putEntry ⟨x, .emptied⟩).legal := by
  refine ⟨Bank.canonical_putEntry h.1 hx hroom, fun e he => ?_⟩
  obtain rfl | ⟨he, -⟩ := (mem_insertBy h.1.1 e).mp he
  · exact emptied_consistent hx.2.2.1
  · exact h.2 e he

theorem legal_dropEntry {b : Bank} (h : b.legal) (k : PointKey) : (b.dropEntry k).legal :=
  ⟨Bank.canonical_dropEntry h.1 k, fun e he => h.2 e (List.mem_filter.mp he).1⟩

/-- Two entries of one key are one entry, the keys rising strictly (R4). -/
theorem entry_unique {b : Bank} (h : Rising Entry.index b.entries) {e x : Entry} (he : e ∈ b.entries) (hx : x ∈ b.entries)
    (hk : e.config.key = x.config.key) : e = x := by
  by_contra hne
  have hindex : e.index = x.index := by rw [Entry.index, Entry.index, hk]
  have hpair := List.Pairwise.forall_of_forall_of_flip (R := fun a b : Entry => a.index = b.index → a = b)
    (fun _ _ _ => rfl) (h.imp fun hlt heq => absurd heq hlt.ne) (h.imp fun hlt heq => absurd heq hlt.ne') he hx hindex
  exact hne hpair

/-- The items of a frame keep every run state within R12. -/
theorem legal_evaluateItems {b : Bank} (h : b.legal) (origin : Station) (policy : UnlistedPolicy) (cycle : Option Word)
    (items : List Item) : (evaluateItems origin policy cycle b items).bank.legal := by
  refine evaluateItems_induction (P := fun y => y.bank.legal) h fun y i hy => ?_
  simp only [Evaluation.item]
  split
  · split <;> exact hy
  · rename_i e he
    obtain ⟨-, hmem⟩ := Bank.entry?_some he
    refine legal_setRun hy fun x hx hk => ?_
    obtain rfl := entry_unique hy.1.1 hx hmem hk
    exact evaluateItem_consistent x i (confirm_pos hy hx)

theorem legal_evaluateFrame {s : State} (h : s.tables.active.legal) (origin : Station) (items : List Item) :
    (s.evaluateFrame origin items).bank.legal := by
  simp only [State.evaluateFrame]
  split
  · split
    · exact legal_evaluateItems h ..
    · cases s.start.settings.modulePolicy <;> exact h
  · exact h

/-- The bank that a commit makes ACTIVE (R126). -/
theorem legal_transferred {active staging : Bank} (ha : active.legal) (hs : staging.legal) (running : Bool) :
    (active.transferred staging running).legal := by
  refine legal_mapSlots (legal_mapRuns hs fun e he => ?_) _
  simp only [transferredRun]
  split
  · rename_i x hx
    split
    · exact fitted_consistent (ha.2 x (Bank.entry?_some hx).2) (confirm_pos hs he)
    · exact emptied_consistent (confirm_pos hs he)
  · exact emptied_consistent (confirm_pos hs he)

/-! ## Every module listed -/

/-- Rewriting the run states, by configuration, keeps every module listed. -/
theorem closed_of_config {b b' : Bank} (h : b.closed) (hconfig : b'.entries.map Entry.config = b.entries.map Entry.config)
    (hslots : ∀ m, b'.lists m = b.lists m) : b'.closed := by
  intro e he
  obtain ⟨x, hx, hxe⟩ : ∃ x ∈ b.entries, x.config = e.config := by
    simpa [hconfig] using List.mem_map_of_mem (f := Entry.config) he
  rw [hslots, ← hxe]
  exact h x hx

theorem closed_empty : Bank.empty.closed := fun _ he => absurd he List.not_mem_nil

theorem closed_mapRuns {b : Bank} (h : b.closed) (f : Entry → RunState) : (b.mapRuns f).closed :=
  closed_of_config h (b.mapRuns_config f) (b.mapRuns_lists f)

theorem closed_mapSlots {b : Bank} (h : b.closed) (f : Slot → ModuleState × Timer) : (b.mapSlots f).closed :=
  closed_of_config h rfl (b.mapSlots_lists f)

/-- The check of a commit finds nothing exactly if every entry's module is listed (R125). -/
theorem firstUnlisted_none_iff (b : Bank) : b.firstUnlisted = none ↔ b.closed := by
  simp [Bank.firstUnlisted]

theorem lists_congr {b b' : Bank} (h : b'.slots = b.slots) (m : Station) : b'.lists m = b.lists m := by
  rw [Bank.lists, Bank.slot?, h]; rfl

/-! ## The tables -/

/-- A new STAGING bank that is legal. -/
theorem sound_setStaging {t : TableStore} (h : t.sound) {b : Bank} (hb : b.legal) : (t.setStaging b).sound := by
  obtain ⟨hactive, -, hclosed⟩ := (tables_sound_iff t).mp h
  refine (tables_sound_iff _).mpr ?_
  rw [TableStore.setStaging_active, TableStore.setStaging_staging]
  exact ⟨hactive, hb, hclosed⟩

/-- A new ACTIVE bank that is legal and closed. -/
theorem sound_setActive {t : TableStore} (h : t.sound) {b : Bank} (hb : b.legal) (hc : b.closed) : (t.setActive b).sound := by
  obtain ⟨-, hstaging, -⟩ := (tables_sound_iff t).mp h
  refine (tables_sound_iff _).mpr ?_
  rw [TableStore.setActive_active, TableStore.setActive_staging]
  exact ⟨hb, hstaging, hc⟩

/-- Both banks rewritten by what keeps them legal and closed. -/
theorem sound_mapBanks {t : TableStore} (h : t.sound) {f : Bank → Bank} (hlegal : ∀ b : Bank, b.legal → (f b).legal)
    (hclosed : ∀ b : Bank, b.closed → (f b).closed) : (t.mapBanks f).sound := by
  obtain ⟨hactive, hstaging, hc⟩ := (tables_sound_iff t).mp h
  refine (tables_sound_iff _).mpr ?_
  rw [TableStore.mapBanks_active, TableStore.mapBanks_staging]
  exact ⟨hlegal _ hactive, hlegal _ hstaging, hclosed _ hc⟩

theorem sound_stageEntry {t : TableStore} (h : t.sound) {x : EntryConfig} (hx : x.inRange) (hroom : t.hasRoom x.key = true) :
    (t.stageEntry x).sound := by
  obtain ⟨-, hstaging, -⟩ := (tables_sound_iff t).mp h
  exact sound_setStaging h (legal_putEntry hstaging hx (by simpa [TableStore.hasRoom] using hroom))

theorem sound_commit {t : TableStore} (h : t.sound) (hlisted : t.staging.firstUnlisted = none) (running : Bool) :
    (t.commit running).sound := by
  obtain ⟨hactive, hstaging, -⟩ := (tables_sound_iff t).mp h
  refine (tables_sound_iff _).mpr ?_
  rw [TableStore.commit_active, TableStore.commit_staging]
  exact ⟨legal_transferred hactive hstaging running, legal_mapSlots hactive _,
    closed_mapSlots (closed_mapRuns ((firstUnlisted_none_iff _).mp hlisted) _) _⟩

theorem sound_released {t : TableStore} (h : t.sound) : t.released.sound := by
  have hcleared := sound_mapBanks h (fun _ => legal_clearRuns) fun _ hb => closed_mapRuns hb _
  obtain ⟨hactive, -, hclosed⟩ := (tables_sound_iff _).mp hcleared
  exact sound_setActive hcleared (legal_mapSlots hactive _) (closed_mapSlots hclosed _)

theorem sound_warm {t : TableStore} (h : t.sound) : t.warm.sound :=
  sound_mapBanks h (fun _ hb => legal_mapSlots (legal_clearRuns hb) _) fun _ hb => closed_mapSlots (closed_mapRuns hb _) _

theorem sound_bankAfterFrame {s : State} (h : s.tables.sound) (origin : Station) (items : List Item) :
    (s.tables.setActive (s.bankAfterFrame origin items)).sound := by
  obtain ⟨hactive, -, hclosed⟩ := (tables_sound_iff _).mp h
  have hlegal := legal_evaluateFrame hactive origin items
  obtain ⟨hconfig, hslots⟩ := evaluateFrame_keeps s origin items
  have hc := closed_of_config hclosed hconfig (lists_congr hslots)
  simp only [State.bankAfterFrame]
  split
  · exact sound_setActive h (legal_mapSlots hlegal _) (closed_mapSlots hc _)
  · exact sound_setActive h hlegal hc

theorem sound_silenced {t : TableStore} (h : t.sound) (m : Station) :
    (t.setActive ((t.active.setSlot m .silent .stopped).clearDebounce m)).sound := by
  obtain ⟨hactive, -, hclosed⟩ := (tables_sound_iff _).mp h
  exact sound_setActive h (legal_clearDebounce (legal_mapSlots hactive _) m) (closed_mapRuns (closed_mapSlots hclosed _) _)

theorem sound_atReset : TableStore.atReset.sound :=
  (tables_sound_iff _).mpr ⟨legal_empty, legal_empty, closed_empty⟩

/-! ## Every effect -/

theorem Effect.keeps_tables_sound {c : Instr} {s t : State} (h : Effect c s t) (hs : s.tables.sound) : t.tables.sound := by
  have ⟨hactive, hstaging, hclosed⟩ := (tables_sound_iff _).mp hs
  cases h with
  | enterScrub => exact sound_atReset
  | loadFails | clearStaging => exact sound_setStaging hs legal_empty
  | loaded _ hlisted => exact sound_commit hs hlisted _
  | stageEntry x hx hroom => exact sound_stageEntry hs hx hroom
  | stageModule m limit cls hx => exact sound_setStaging hs ⟨Bank.canonical_putSlot hstaging.1 hx, hstaging.2⟩
  | unstageEntry k => exact sound_setStaging hs (legal_dropEntry hstaging k)
  | unstageModule m => exact sound_setStaging hs ⟨Bank.canonical_dropSlot hstaging.1 m, hstaging.2⟩
  | completeCopy => rw [State.completeCopy, State.finalResponse_tables]; exact sound_setStaging hs (legal_copied hactive)
  | refuseCommit => rw [State.refuseCommit, State.finalResponse_tables]; exact hs
  | completeCommit _ hlisted => rw [State.completeCommit, State.finalResponse_tables]; exact sound_commit hs hlisted _
  | hold => exact sound_setActive hs (legal_mapSlots hactive _) (closed_mapSlots hclosed _)
  | release => exact sound_released hs
  | hears origin items => exact sound_bankAfterFrame hs origin items
  | silences m => exact sound_silenced hs m
  | warm => exact sound_warm hs
  | takeMark => rwa [State.takeMark_tables]
  | endDeaf => rwa [State.endDeaf_tables]
  | changeOwner => rwa [State.changeOwner_tables]
  | emits => rwa [State.emit_tables]
  | _ => exact hs

/-- Settles O53, effect by effect; a millisecond touches timers alone. -/
theorem stepKeepsTablesSound : Obligations.StepKeepsTablesSound :=
  step_keeps (fun _ _ hs => hs)
    (fun _ hs => sound_mapBanks hs (fun _ hb => legal_mapSlots hb _) fun _ hb => closed_mapSlots hb _)
    fun _ _ _ h hs => h.keeps_tables_sound hs

end Sys2Proof.Machine
end

section
/-!
PROOFS. The silence timers stay with the part state and the module states (R45, R46, R49, R53): what each operation on a bank does to
its timers, then each effect.
-/

namespace Sys2Proof.Machine

set_option Elab.async false

/-! ## The timers of a bank -/

/-- Every silence timer of the bank is stopped (R45). -/
abbrev Bank.quiet (b : Bank) : Prop := ∀ x ∈ b.slots, x.timer.isRunning = false

/-- The silence timers run exactly in RUNNING, for the modules that are not SILENT (R46, R49, R53). -/
abbrev Bank.watched (b : Bank) (running : Prop) : Prop :=
  ∀ x ∈ b.slots, x.timer.isRunning = true ↔ running ∧ x.state ≠ .silent

theorem quiet_mapSlots {b : Bank} {f : Slot → ModuleState × Timer} (h : ∀ x ∈ b.slots, (f x).2.isRunning = false) :
    (b.mapSlots f).quiet := by
  intro y hy
  obtain ⟨x, hx, rfl⟩ := List.mem_map.mp hy
  exact h x hx

theorem watched_mapSlots {b : Bank} {f : Slot → ModuleState × Timer} {running : Prop}
    (h : ∀ x ∈ b.slots, (f x).2.isRunning = true ↔ running ∧ (f x).1 ≠ .silent) : (b.mapSlots f).watched running := by
  intro y hy
  obtain ⟨x, hx, rfl⟩ := List.mem_map.mp hy
  exact h x hx

theorem quiet_empty : Bank.empty.quiet := fun _ hx => absurd hx List.not_mem_nil

theorem watched_empty (running : Prop) : Bank.empty.watched running := fun _ hx => absurd hx List.not_mem_nil

/-- A bank of stopped timers is what is asked for outside RUNNING. -/
theorem watched_of_quiet {b : Bank} (h : b.quiet) {running : Prop} (hr : ¬running) : b.watched running := by
  intro x hx
  simp [h x hx, hr]

theorem quiet_stopTimers (b : Bank) : b.stopTimers.quiet := quiet_mapSlots fun _ _ => rfl

theorem quiet_unhear (b : Bank) : b.unhear.quiet := quiet_mapSlots fun _ _ => rfl

theorem watched_superviseAfresh (b : Bank) {running : Prop} (hr : running) : b.superviseAfresh.watched running :=
  watched_mapSlots fun _ _ => by simp [hr]

/-- What is listed in a bank after a listing is the new slot or an old one. -/
theorem eq_or_mem_of_mem_insertBy {α : Type} {key : α → Nat} {a y : α} {l : List α} (h : y ∈ insertBy key a l) :
    y = a ∨ y ∈ l := by
  induction l with
  | nil => simpa [insertBy] using h
  | cons x xs ih =>
    simp only [insertBy] at h
    split_ifs at h
    · simpa using h
    · obtain rfl | h := List.mem_cons.mp h <;> simp [*]
    · obtain rfl | h := List.mem_cons.mp h
      · simp
      · obtain h | h := ih h <;> simp [h]

theorem quiet_putSlot {b : Bank} (h : b.quiet) {x : Slot} (hx : x.timer.isRunning = false) : (b.putSlot x).quiet := by
  intro y hy
  obtain rfl | hy := eq_or_mem_of_mem_insertBy hy
  · exact hx
  · exact h y hy

theorem quiet_dropSlot {b : Bank} (h : b.quiet) (m : Station) : (b.dropSlot m).quiet :=
  fun x hx => h x (List.mem_filter.mp hx).1

/-- The bank that a commit makes ACTIVE (R54, R127). -/
theorem watched_transferred {active : Bank} {running : Bool} (h : active.watched (running = true)) (staging : Bank) :
    (active.transferred staging running).watched (running = true) := by
  refine watched_mapSlots fun x _ => ?_
  simp only [transferredSlot]
  split
  · rename_i a ha; exact h a (Bank.slot?_some ha).2
  · cases running <;> simp

/-- The slots after a POINT frame: those of before, the heard module LIVE with its timer started (R48). -/
theorem watched_bankAfterFrame {s : State} (h : s.tables.active.watched (s.start.part = .running)) (origin : Station)
    (items : List Item) : (s.bankAfterFrame origin items).watched (s.start.part = .running) := by
  obtain ⟨-, hslots⟩ := evaluateFrame_keeps s origin items
  rw [Bank.watched, ← hslots] at h
  simp only [State.bankAfterFrame]
  split
  · rename_i x hx
    obtain ⟨hpart, -⟩ := heard_some hx
    refine watched_mapSlots fun y hy => ?_
    split
    · simp [hpart]
    · exact h y hy
  · exact h

/-- Outside RUNNING a POINT frame changes nothing of the ACTIVE bank (R24). -/
theorem bankAfterFrame_of_not_running {s : State} (h : s.start.part ≠ .running) (origin : Station) (items : List Item) :
    s.bankAfterFrame origin items = s.tables.active := by
  simp [State.bankAfterFrame, State.heard, State.evaluateFrame, State.isRunning, h]

theorem watched_silenced {b : Bank} {running : Prop} (h : b.watched running) (m : Station) :
    ((b.setSlot m .silent .stopped).clearDebounce m).watched running := by
  refine watched_mapSlots (b := b) fun x hx => ?_
  split
  · simp
  · exact h x hx

/-! ## Every effect -/

/-- The law reads the tables and the part state alone. -/
theorem supervised_congr {s t : State} (hs : s.supervised) (htables : t.tables = s.tables) (hpart : t.start.part = s.start.part) :
    t.supervised := by
  have hstarted : t.started = s.started := by rw [State.started, State.started, hpart]
  rwa [State.supervised, htables, hpart, hstarted]

theorem endDeaf_part (s : State) : s.endDeaf.start.part = s.start.part := by
  cases h : s.emitter.link
  · rw [endDeaf_normal h]
  · rw [endDeaf_deaf h]

/-- Once HELD or RUNNING the last clause asks nothing. -/
theorem supervised_of_started {s : State} (hstarted : s.started = true) (hstaging : s.tables.staging.quiet)
    (hactive : s.tables.active.watched (s.start.part = .running)) : s.supervised :=
  ⟨hstaging, hactive, fun h => by rw [hstarted] at h; cases h⟩

/-- With a table activity the part has been started. -/
theorem started_of_activity {s : State} (hs : s.supervised) (h : s.tables.activity ≠ .idle) : s.started = true := by
  obtain ⟨-, -, hidle⟩ := hs
  by_contra hne
  exact h (hidle (by simpa using hne)).2

theorem supervised_setStaging {s : State} (hs : s.supervised) {b : Bank} (hb : b.quiet) :
    (s.withTables (s.tables.setStaging b)).supervised := by
  obtain ⟨-, hactive, hidle⟩ := hs
  refine ⟨?_, ?_, fun h => ?_⟩
  · rw [State.withTables_tables, TableStore.setStaging_staging]; exact hb
  · rw [State.withTables_tables, TableStore.setStaging_active]; exact hactive
  · rw [State.withTables_tables, TableStore.setStaging_active, TableStore.setStaging_activity]; exact hidle h

theorem supervised_setActive {s : State} (hs : s.supervised) {b : Bank} (hb : b.watched (s.start.part = .running))
    (hempty : s.started = false → b = s.tables.active) : (s.withTables (s.tables.setActive b)).supervised := by
  obtain ⟨hstaging, -, hidle⟩ := hs
  refine ⟨?_, ?_, fun h => ?_⟩
  · rw [State.withTables_tables, TableStore.setActive_staging]; exact hstaging
  · rw [State.withTables_tables, TableStore.setActive_active]; exact hb
  · rw [State.withTables_tables, TableStore.setActive_active, TableStore.setActive_activity, hempty h]; exact hidle h

/-- The table activity IDLE is what SCRUB and LOADING ask for. -/
theorem supervised_idle {s : State} (hs : s.supervised) : (s.withTables { s.tables with activity := .idle }).supervised :=
  ⟨hs.1, hs.2.1, fun h => ⟨(hs.2.2 h).1, rfl⟩⟩

/-- Before the part is started there is no slot for an expiry to touch. -/
theorem silenced_of_not_started {s : State} (hs : s.supervised) (h : s.started = false) (m : Station) :
    (s.tables.active.setSlot m .silent .stopped).clearDebounce m = s.tables.active := by
  obtain ⟨-, -, hidle⟩ := hs
  rw [(hidle h).1]
  rfl

theorem not_running_of_not_started {s : State} (h : s.started = false) : s.start.part ≠ .running := by
  intro hpart
  simp [State.started, hpart] at h

theorem supervised_loaded {s : State} (hs : s.supervised) (hpart : s.start.part = .loading) :
    ((((s.withEmitter (s.emitter.loaded s.start.loader.classes)).withTables
      { s.tables.commit s.start.loader.run with activity := s.tables.activity }).withMgmt
        { s.mgmt with owner := s.start.loader.preset }).withStart s.start.loaded).supervised := by
  obtain ⟨-, -, hidle⟩ := hs
  have ⟨hnone, _⟩ := hidle (by simp [State.started, hpart])
  refine supervised_of_started ?_ ?_ ?_
  · cases hrun : s.start.loader.run <;> simp [State.started, StartController.loaded, hrun]
  · change (s.tables.commit s.start.loader.run).staging.quiet
    rw [TableStore.commit_staging]
    exact quiet_stopTimers _
  · have hwatched := watched_transferred (active := s.tables.active) (running := s.start.loader.run)
      (hnone ▸ watched_empty _) s.tables.staging
    rw [← TableStore.commit_active] at hwatched
    have hrun : s.start.loaded.part = .running ↔ s.start.loader.run = true := by
      cases hrun : s.start.loader.run <;> simp [StartController.loaded, hrun]
    change (s.tables.commit s.start.loader.run).active.watched (s.start.loaded.part = .running)
    simpa only [Bank.watched, hrun] using hwatched

theorem supervised_commit {s : State} (hs : s.supervised) (hactivity : s.tables.activity ≠ .idle) :
    (s.withTables (s.tables.commit s.isRunning)).supervised := by
  have ⟨_, hactive, _⟩ := hs
  have hstarted := started_of_activity hs hactivity
  refine supervised_of_started hstarted ?_ ?_
  · rw [State.withTables_tables, TableStore.commit_staging]
    exact quiet_stopTimers _
  · simp only [Bank.watched, ← isRunning_iff] at hactive ⊢
    rw [State.withTables_tables, TableStore.commit_active]
    exact watched_transferred hactive _

theorem supervised_hold (s : State) (hs : s.supervised) : s.hold.supervised := by
  obtain ⟨hstaging, -, -⟩ := hs
  refine supervised_of_started rfl ?_ (watched_of_quiet ?_ (by simp [State.hold]))
  · rw [State.hold, State.withStart_tables, State.withTables_tables, TableStore.setActive_staging]; exact hstaging
  · rw [State.hold, State.withStart_tables, State.withTables_tables, TableStore.setActive_active]; exact quiet_stopTimers _

theorem supervised_release {s : State} (hs : s.supervised) :
    ((s.withTables s.tables.released).withStart
      { s.start.clearStartAlert s.emitter.link with part := .running }).supervised := by
  obtain ⟨hstaging, -, -⟩ := hs
  refine supervised_of_started rfl ?_ ?_
  · change s.tables.released.staging.quiet
    rw [TableStore.released, TableStore.setActive_staging, TableStore.mapBanks_staging]; exact hstaging
  · change s.tables.released.active.watched (PartState.running = .running)
    rw [TableStore.released, TableStore.setActive_active]; exact watched_superviseAfresh _ rfl

theorem supervised_warm (s : State) : s.warm.supervised := by
  refine supervised_of_started rfl ?_ (watched_of_quiet ?_ (by simp [State.warm, StartController.warm]))
  · change (s.tables.mapBanks fun b => b.clearRuns.unhear).staging.quiet
    rw [TableStore.mapBanks_staging]; exact quiet_unhear _
  · change (s.tables.mapBanks fun b => b.clearRuns.unhear).active.quiet
    rw [TableStore.mapBanks_active]; exact quiet_unhear _

theorem Effect.keeps_supervised {c : Instr} {s t : State} (h : Effect c s t) (hs : s.supervised) : t.supervised := by
  have ⟨hstaging, hactive, hidle⟩ := hs
  cases h with
  | pinReset => exact supervised_idle hs
  | enterScrub => exact ⟨quiet_empty, watched_empty _, fun _ => ⟨rfl, rfl⟩⟩
  | trunkStarted hpart =>
    have ⟨hnone, _⟩ := hidle (by simp [State.started, hpart])
    exact supervised_of_started rfl hstaging (hnone ▸ watched_empty _)
  | loadBegins hpart =>
    have hnot : s.started = false := by simp [State.started, hpart]
    have ⟨hnone, _⟩ := hidle hnot
    exact ⟨hstaging, hnone ▸ watched_empty _, fun _ => hidle hnot⟩
  | loadFails reason hpart =>
    have ⟨hnone, _⟩ := hidle (by simp [State.started, hpart])
    have ⟨hcleared, _⟩ := supervised_setStaging hs quiet_empty
    refine supervised_of_started rfl hcleared ?_
    change (s.tables.setStaging .empty).active.watched _
    rw [TableStore.setStaging_active, hnone]
    exact watched_empty _
  | loaded hpart => exact supervised_loaded hs hpart
  | stageEntry => exact supervised_setStaging hs hstaging
  | stageModule => exact supervised_setStaging hs (quiet_putSlot hstaging rfl)
  | unstageEntry => exact supervised_setStaging hs hstaging
  | unstageModule => exact supervised_setStaging hs (quiet_dropSlot hstaging _)
  | clearStaging => exact supervised_setStaging hs quiet_empty
  | begins _ _ _ _ hstarted => exact supervised_of_started hstarted hstaging hactive
  | completeCopy =>
    refine supervised_congr (supervised_idle (supervised_setStaging hs (quiet_unhear (s.tables.active.mapRuns fun _ => .emptied))))
      ?_ ?_
    · rw [State.completeCopy, State.finalResponse_tables]; rfl
    · rw [State.completeCopy, State.finalResponse_start]; rfl
  | refuseCommit =>
    refine supervised_congr (supervised_idle hs) ?_ ?_
    · rw [State.refuseCommit, State.finalResponse_tables]
    · rw [State.refuseCommit, State.finalResponse_start]
  | completeCommit hactivity =>
    refine supervised_congr (supervised_commit hs (by simp [hactivity])) ?_ ?_
    · rw [State.completeCommit, State.finalResponse_tables]
    · rw [State.completeCommit, State.finalResponse_start]
  | hold => exact supervised_hold s hs
  | release => exact supervised_release hs
  | hears origin items =>
    exact supervised_setActive hs (watched_bankAfterFrame hactive origin items) fun h =>
      bankAfterFrame_of_not_running (not_running_of_not_started h) origin items
  | silences m => exact supervised_setActive hs (watched_silenced hactive m) fun h => silenced_of_not_started hs h m
  | warm => exact supervised_warm s
  | takeMark => exact supervised_congr hs (State.takeMark_tables ..) (by rw [State.takeMark_start])
  | endDeaf => exact supervised_congr hs (State.endDeaf_tables s) (endDeaf_part s)
  | changeOwner => exact supervised_congr hs (State.changeOwner_tables ..) (changeOwner_part ..)
  | emits => exact supervised_congr hs (State.emit_tables ..) (by rw [State.emit_start])
  | _ => exact hs

theorem tick_isRunning (t : Timer) : t.tick.isRunning = t.isRunning := by cases t <;> rfl

/-- A millisecond starts and stops no timer. -/
theorem supervised_tick (s : State) (hs : s.supervised) : s.tick.supervised := by
  obtain ⟨hstaging, hactive, hidle⟩ := hs
  refine ⟨?_, ?_, fun h => ?_⟩
  · rw [State.tick, State.withEmitter_tables, State.withTables_tables, TableStore.mapBanks_staging]
    exact quiet_mapSlots fun x hx => (tick_isRunning _).trans (hstaging x hx)
  · rw [State.tick, State.withEmitter_tables, State.withTables_tables, TableStore.mapBanks_active]
    exact watched_mapSlots fun x hx => by rw [tick_isRunning]; exact hactive x hx
  · rw [State.tick, State.withEmitter_tables, State.withTables_tables, TableStore.mapBanks_active, (hidle h).1]
    exact ⟨rfl, (hidle h).2⟩

/-- Settles O54, effect by effect. -/
theorem stepKeepsSupervision : Obligations.StepKeepsSupervision :=
  step_keeps (fun _ _ hs => hs) supervised_tick fun _ _ _ h hs => h.keeps_supervised hs

end Sys2Proof.Machine
end

section
/-!
PROOFS. The response places, the FIFOs, the operation in progress and the repeat cache stay together (R3, R103, R104, R143 to R145, R154,
R161, R164).
-/

namespace Sys2Proof.Machine

set_option Elab.async false

/-! ## The Sweep Generator -/

/-- A sweep in progress has a scope, and has swept at most 512 (R103, R104). -/
abbrev SweepGenerator.sound (g : SweepGenerator) : Prop := (g.state ≠ .idle → g.scope ≠ none) ∧ g.count ≤ Config.sweptMax

theorem sweep_started_sound (g : SweepGenerator) (scope : Scope) : (g.started scope).sound :=
  ⟨by simp [SweepGenerator.started], Nat.zero_le _⟩

theorem sweep_mark_sound {g : SweepGenerator} (h : g.sound) (running : Bool) (owner : Option Node) (cycle : Word) :
    (g.mark running owner cycle).sound := by
  simp only [SweepGenerator.mark, SweepGenerator.trigger]
  split
  · split
    · split
      · exact sweep_started_sound _ _
      · exact h
    · exact h
  · exact h

theorem sweep_ownerChange_sound {g : SweepGenerator} (h : g.sound) : g.ownerChange.sound := by
  simp only [SweepGenerator.ownerChange]
  split
  · exact h
  · exact ⟨by simp, h.2⟩
  · exact ⟨by simp, h.2⟩

theorem sweepWin_sound {s : State} (h : s.sweep.sound) : s.sweepWin.2.sound := by
  simp only [State.sweepWin]
  split
  · exact ⟨by simp, h.2⟩
  · split
    · exact ⟨h.1, Nat.min_le_left ..⟩
    · exact ⟨by simp, h.2⟩

theorem takeMark_sweep_sound {s : State} (h : s.sweep.sound) (n : Word) : (s.takeMark n).sweep.sound := by
  simp only [State.takeMark]
  split
  · exact h
  all_goals exact sweep_mark_sound h ..

theorem emit_sweep_sound {s : State} (h : s.sweep.sound) (owner : Node) (ch : Choice) : (s.emit owner ch).sweep.sound := by
  cases ch with
  | sweep => exact sweepWin_sound h
  | _ => exact h

/-! ## The ports -/

/-- The response list and the FIFOs within their places, the fifth place for one final response (R143 to R145). -/
abbrev Ports.sound (p : Ports) : Prop :=
  (p.responses.filter fun r => !r.final).length ≤ Config.responseCapacity ∧ (p.responses.filter fun r => r.final).length ≤ 1 ∧
    p.up.length ≤ Config.fifoCapacity ∧ p.down.length ≤ Config.fifoCapacity

/-- No final response waits. -/
abbrev Ports.noFinal (p : Ports) : Prop := (p.responses.any fun r => r.final) = false

/-- The law by its blocks. -/
theorem requestsSound_iff (s : State) :
    s.requestsSound ↔
      s.ports.sound ∧ (s.tables.activity ≠ .idle → s.ports.noFinal) ∧ s.sweep.sound ∧
        (s.tables.activity = .idle ↔ s.mgmt.inProgress = none) ∧ (s.mgmt.owner = none → s.mgmt.cache = none) ∧
        (s.started = false → s.mgmt.owner = none ∧ s.tables.activity = .idle) := by
  simp only [State.requestsSound, State.requestResponses, State.finalWaits]
  tauto

theorem ports_sound_of_le {p p' : Ports} (h : p.sound) (hup : p'.up.length ≤ p.up.length) (hdown : p'.down.length ≤ p.down.length)
    (hresponses : p'.responses.Sublist p.responses) : p'.sound := by
  obtain ⟨hr, hf, hu, hd⟩ := h
  exact ⟨((hresponses.filter _).length_le).trans hr, ((hresponses.filter _).length_le).trans hf, hup.trans hu, hdown.trans hd⟩

theorem noFinal_of_sublist {p p' : Ports} (h : p.noFinal) (hresponses : p'.responses.Sublist p.responses) : p'.noFinal := by
  simp only [Ports.noFinal, List.any_eq_false] at *
  exact fun r hr => h r (hresponses.subset hr)

theorem emit_ports (s : State) (owner : Node) (ch : Choice) :
    (s.emit owner ch).ports.up = s.ports.up ∧ (s.emit owner ch).ports.down = s.ports.down ∧
      (s.emit owner ch).ports.responses = s.ports.responses := by
  cases ch <;> exact ⟨rfl, rfl, rfl⟩

/-! ## Every effect -/

/-- The law reads these blocks alone. -/
theorem requestsSound_congr {s t : State} (hs : s.requestsSound) (hports : t.ports = s.ports)
    (hactivity : t.tables.activity = s.tables.activity) (hmgmt : t.mgmt = s.mgmt) (hsweep : t.sweep = s.sweep)
    (hstarted : t.started = false → s.started = false) : t.requestsSound := by
  rw [requestsSound_iff] at *
  rw [hports, hactivity, hmgmt, hsweep]
  obtain ⟨hp, hf, hg, hi, hc, ho⟩ := hs
  exact ⟨hp, hf, hg, hi, hc, fun h => ho (hstarted h)⟩

/-- The end of an operation with its final response: the fifth place was free (R145, R164). -/
theorem requestsSound_final {s : State} (hs : s.requestsSound) (hactivity : s.tables.activity ≠ .idle) {x : TableStore}
    (hidle : x.activity = .idle) (st : Status) (r : Results) : ((s.withTables x).finalResponse st r).requestsSound := by
  obtain ⟨⟨hr, -, hu, hd⟩, hfree, hg, hi, hc, ho⟩ := (requestsSound_iff s).mp hs
  obtain ⟨p, hp⟩ := Option.ne_none_iff_exists'.mp (mt hi.mpr hactivity)
  have hnone : (s.ports.responses.filter fun r => r.final) = [] := by
    simpa [Ports.noFinal, List.filter_eq_nil_iff] using hfree hactivity
  rw [finalResponse_some (s := s.withTables x) hp, requestsSound_iff]
  refine ⟨⟨?_, ?_, hu, hd⟩, fun h => absurd hidle h, hg, ⟨fun _ => rfl, fun _ => hidle⟩, fun hnoOwner => ?_, fun h => ?_⟩
  · simpa [State.pushResponse, List.filter_append] using hr
  · simp [State.pushResponse, List.filter_append, hnone]
  · have hempty : s.mgmt.cache = none := hc hnoOwner
    simp [cacheAfterFinal, hempty]
  · exact absurd (ho h).2 hactivity

theorem requestsSound_changeOwner {s : State} (hs : s.requestsSound) (o : Option Node) (hstarted : s.started = true) :
    (s.changeOwner o).requestsSound := by
  obtain ⟨hp, hf, hg, hi, -, -⟩ := (requestsSound_iff s).mp hs
  have hnow : (s.changeOwner o).started = true := by rw [State.started, changeOwner_part]; exact hstarted
  have hsweep : (s.changeOwner o).sweep = s.sweep.ownerChange := by simp [State.changeOwner]
  have hprogress : (s.changeOwner o).mgmt.inProgress = s.mgmt.inProgress := by simp [State.changeOwner]
  rw [requestsSound_iff, State.changeOwner_ports, State.changeOwner_tables, hsweep, hprogress]
  exact ⟨hp, hf, sweep_ownerChange_sound hg, hi, fun _ => changeOwner_cache s o, fun h => by rw [hnow] at h; cases h⟩

theorem requestsSound_pushResponse {s : State} (hs : s.requestsSound) {r : Response} (hfinal : r.final = false)
    (hroom : s.requestResponses < Config.responseCapacity) : (s.pushResponse r).requestsSound := by
  obtain ⟨⟨-, hf, hu, hd⟩, hfree, hrest⟩ := (requestsSound_iff s).mp hs
  rw [requestsSound_iff]
  refine ⟨⟨?_, ?_, hu, hd⟩, ?_, hrest⟩
  · simp only [State.requestResponses] at hroom
    simp only [State.pushResponse, State.withPorts_ports, List.filter_append, List.length_append]
    simp [hfinal]
    omega
  · simpa [State.pushResponse, List.filter_append, hfinal] using hf
  · simpa [State.pushResponse, Ports.noFinal, hfinal] using hfree

theorem Effect.keeps_requestsSound {c : Instr} {s t : State} (h : Effect c s t) (hs : s.requestsSound) : t.requestsSound := by
  have ⟨hports, hfree, hsweep, hprogress, hcache, hidle⟩ := (requestsSound_iff s).mp hs
  cases h with
  | pinReset =>
    exact (requestsSound_iff _).mpr
      ⟨hports, fun h => absurd rfl h, hsweep, ⟨fun _ => rfl, fun _ => rfl⟩, hcache, fun h => ⟨(hidle h).1, rfl⟩⟩
  | enterScrub =>
    exact (requestsSound_iff _).mpr ⟨⟨Nat.zero_le _, Nat.zero_le _, Nat.zero_le _, Nat.zero_le _⟩, fun h => absurd rfl h,
      ⟨fun h => absurd rfl h, Nat.zero_le _⟩, ⟨fun _ => rfl, fun _ => rfl⟩, fun _ => rfl, fun _ => ⟨rfl, rfl⟩⟩
  | trunkStarted hpart | loadBegins hpart =>
    have hnot : s.started = false := by simp [State.started, hpart]
    exact (requestsSound_iff _).mpr ⟨hports, hfree, hsweep, hprogress, hcache, fun _ => hidle hnot⟩
  | loadFails => exact requestsSound_congr hs rfl (TableStore.setStaging_activity ..) rfl rfl fun h => by cases h
  | loaded hpart =>
    have ⟨howner, hactivity⟩ := hidle (by simp [State.started, hpart])
    refine (requestsSound_iff _).mpr ⟨hports, hfree, hsweep, hprogress, fun _ => hcache howner, fun h => ?_⟩
    cases hrun : s.start.loader.run <;> simp [State.started, StartController.loaded, hrun] at h
  | stageEntry | stageModule | unstageEntry | unstageModule | clearStaging =>
    exact requestsSound_congr hs rfl (TableStore.setStaging_activity ..) rfl rfl id
  | begins q o a howner hstarted hnone ha =>
    refine (requestsSound_iff _).mpr
      ⟨hports, fun _ => hnone, hsweep, ⟨fun h => absurd h ha, fun h => by cases h⟩, fun h => ?_, fun h => ?_⟩
    · cases h.symm.trans howner
    · cases h.symm.trans hstarted
  | completeCopy hactivity =>
    exact requestsSound_final hs (by simp [hactivity]) rfl _ _
  | refuseCommit k hactivity =>
    exact requestsSound_final hs (by simp [hactivity]) rfl _ _
  | completeCommit hactivity =>
    exact requestsSound_final hs (by simp [hactivity]) rfl _ _
  | hold => exact requestsSound_congr hs rfl (TableStore.setActive_activity ..) rfl rfl fun h => by cases h
  | release => exact requestsSound_congr hs rfl (TableStore.setActive_activity ..) rfl rfl fun h => by cases h
  | hears | silences => exact requestsSound_congr hs rfl (TableStore.setActive_activity ..) rfl rfl id
  | ports p hup hdown hresponses =>
    exact (requestsSound_iff _).mpr
      ⟨ports_sound_of_le hports hup hdown hresponses, fun h => noFinal_of_sublist (hfree h) hresponses, hsweep, hprogress, hcache, hidle⟩
  | pushUp f hroom =>
    obtain ⟨hr, hf, hu, hd⟩ := hports
    exact (requestsSound_iff _).mpr ⟨⟨hr, hf, by simpa [State.pushUp] using hroom, hd⟩, hfree, hsweep, hprogress, hcache, hidle⟩
  | pushDown bytes hroom =>
    obtain ⟨hr, hf, hu, hd⟩ := hports
    exact (requestsSound_iff _).mpr ⟨⟨hr, hf, hu, by simpa using hroom⟩, hfree, hsweep, hprogress, hcache, hidle⟩
  | pushResponse r hfinal hroom =>
    exact requestsSound_pushResponse hs hfinal hroom
  | caches tag content howner => exact (requestsSound_iff _).mpr ⟨hports, hfree, hsweep, hprogress, fun h => absurd h howner, hidle⟩
  | takeMark n =>
    rw [requestsSound_iff, State.takeMark_ports, State.takeMark_tables, State.takeMark_mgmt]
    refine ⟨hports, hfree, takeMark_sweep_sound hsweep n, hprogress, hcache, fun h => hidle ?_⟩
    rwa [State.started, State.takeMark_start] at h
  | endDeaf =>
    exact requestsSound_congr hs (by simp) (by simp) (by simp) (by simp) fun h => by rwa [endDeaf_started] at h
  | changeOwner o hstarted =>
    exact requestsSound_changeOwner hs o hstarted
  | sweepStarts scope => exact (requestsSound_iff _).mpr ⟨hports, hfree, sweep_started_sound _ _, hprogress, hcache, hidle⟩
  | sweepStops hactive =>
    exact (requestsSound_iff _).mpr
      ⟨hports, hfree, ⟨fun _ => hsweep.1 (by simp [hactive]), hsweep.2⟩, hprogress, hcache, hidle⟩
  | warm =>
    refine (requestsSound_iff _).mpr
      ⟨⟨hports.1, hports.2.1, Nat.zero_le _, Nat.zero_le _⟩, fun h => absurd rfl h, ⟨fun h => absurd rfl h, hsweep.2⟩,
      ⟨fun _ => rfl, fun _ => rfl⟩, hcache, fun h => ?_⟩
    cases h
  | emits owner ch =>
    obtain ⟨hup, hdown, hresponses⟩ := emit_ports s owner ch
    rw [requestsSound_iff, State.emit_tables, State.emit_mgmt]
    have hsub : (s.emit owner ch).ports.responses.Sublist s.ports.responses := by rw [hresponses]
    refine ⟨ports_sound_of_le hports (by rw [hup]) (by rw [hdown]) hsub, fun h => noFinal_of_sublist (hfree h) hsub,
      emit_sweep_sound hsweep owner ch, hprogress, hcache, fun h => hidle ?_⟩
    rwa [State.started, State.emit_start] at h
  | _ => exact hs

/-- Settles O60, effect by effect; the law reads no timer. -/
theorem stepKeepsRequestsSound : Obligations.StepKeepsRequestsSound :=
  step_keeps (fun _ _ hs => hs) (fun _ hs => hs) fun _ _ _ h hs => h.keeps_requestsSound hs

end Sys2Proof.Machine
end

section
/-!
PROOFS. Ownership, link and ALERT stay together (R79, R94 to R96, R112, R154, R180).
-/

namespace Sys2Proof.Machine

set_option Elab.async false

/-! ## What the shared operations do to link and sweep -/

/-- A payment changes credits alone (R86). -/
theorem pay_eq (e : Emitter) (d : ReportClass) : ∃ credits, e.pay d = { e with credits := credits } := by
  simp only [Emitter.pay]
  split
  · exact ⟨e.credits, rfl⟩
  · exact ⟨_, rfl⟩

/-- An emission touches neither the link condition nor the hail timer nor a pending HAIL. -/
theorem emit_link (s : State) (owner : Node) (ch : Choice) :
    (s.emit owner ch).emitter.link = s.emitter.link ∧ (s.emit owner ch).emitter.hailTimer = s.emitter.hailTimer ∧
      (s.emit owner ch).emitter.hailPending = s.emitter.hailPending ∧
      (s.emit owner ch).emitter.ackTimer = s.emitter.ackTimer := by
  cases ch with
  | fromClass d r =>
    obtain ⟨credits, hpay⟩ := pay_eq s.emitter d
    simp [State.emit, State.emitFirst, State.send, hpay]
  | _ => exact ⟨rfl, rfl, rfl, rfl⟩

/-- Without an owner a SCAN-MARK starts no sweep (R116). -/
theorem takeMark_idle {s : State} (h : s.sweep.state = .idle) (howner : s.mgmt.owner = none) (n : Word) :
    (s.takeMark n).sweep.state = .idle := by
  have hmark : (s.sweep.mark s.isRunning s.mgmt.owner n).state = .idle := by
    simp only [SweepGenerator.mark, SweepGenerator.trigger, howner]
    split
    · split
      · split
        · rename_i htrigger; cases htrigger.2.2
        · exact h
      · exact h
    · exact h
  simp only [State.takeMark]
  split
  · exact h
  all_goals exact hmark

/-- With the link DEAF no end of a copy starts the ack wait timer (R89). -/
theorem copyEnds_deaf {e : Emitter} (hlink : e.link = .deaf) (hstopped : e.ackTimer.isRunning = false) (ackWait : Nat) (n : Word) :
    (e.copyEnds ackWait n).ackTimer.isRunning = false := by
  simp only [Emitter.copyEnds]
  split
  · cases endCopy n e.outstanding <;> simp [ackTimerFor, hlink]
  · exact hstopped

/-! ## Every effect -/

theorem linkSound_changeOwner {s : State} (hs : s.linkSound) (o : Option Node) (hstarted : s.started = true) :
    (s.changeOwner o).linkSound := by
  obtain ⟨-, -, -, hnormal, halert⟩ := hs
  have hnow : (s.changeOwner o).started = true := by rw [State.started, changeOwner_part]; exact hstarted
  have hsweep : (s.changeOwner o).sweep.state = .idle := by
    simp only [State.changeOwner, SweepGenerator.ownerChange, State.withMgmt_sweep, State.withSweep_sweep,
      State.emitterOwnerChange_sweep]
    cases h : s.sweep.state <;> simp [h]
  refine ⟨fun _ => ⟨changeOwner_outstanding s o, hsweep⟩, fun h => (by rw [hnow] at h; cases h), fun h => ?_, fun _ => ?_, ?_⟩
  · rw [changeOwner_link] at h; cases h
  · cases hlink : s.emitter.link
    · simpa [State.changeOwner, State.emitterOwnerChange, hlink] using hnormal hlink
    · simp [State.changeOwner, State.emitterOwnerChange, hlink, Emitter.linkNormal]
  · rw [changeOwner_link]
    cases hlink : s.emitter.link
    · simpa [State.changeOwner, State.emitterOwnerChange, hlink] using halert
    · simp [State.changeOwner, State.emitterOwnerChange, hlink, StartController.dropAlert]

/-- The final response of an operation leaves ownership, link and sweep. -/
theorem linkSound_finalResponse {s : State} (hs : s.linkSound) {x : TableStore} (st : Status) (r : Results) :
    ((s.withTables x).finalResponse st r).linkSound := by
  cases hp : s.mgmt.inProgress with
  | none => simp only [State.finalResponse, State.withTables_mgmt, hp]; exact hs
  | some p => rw [finalResponse_some (s := s.withTables x) hp]; exact hs

theorem linkSound_endDeaf {s : State} (hs : s.linkSound) : s.endDeaf.linkSound := by
  cases hlink : s.emitter.link
  · rwa [endDeaf_normal hlink]
  · obtain ⟨howner, hstarted, hdeaf, -, -⟩ := hs
    have ⟨hsome, _⟩ := hdeaf hlink
    rw [endDeaf_deaf hlink]
    exact ⟨fun h => absurd h hsome, hstarted, fun h => (by cases h), fun _ => ⟨rfl, rfl⟩, by simp⟩

theorem linkSound_takeMark {s : State} (hs : s.linkSound) (n : Word) : (s.takeMark n).linkSound := by
  obtain ⟨howner, hstarted, hrest⟩ := hs
  have hsame : (s.takeMark n).started = s.started := by rw [State.started, State.takeMark_start]; rfl
  rw [State.linkSound, State.takeMark_emitter, State.takeMark_mgmt, State.takeMark_start, hsame]
  exact ⟨fun h => ⟨(howner h).1, takeMark_idle (howner h).2 h n⟩, hstarted, hrest⟩

theorem linkSound_emit {s : State} (hs : s.linkSound) {owner : Node} {ch : Choice} (hoffer : s.reportOffer = some (owner, ch)) :
    (s.emit owner ch).linkSound := by
  obtain ⟨-, hstarted, -, hnormal, halert⟩ := hs
  obtain ⟨hsome, hlink, -, -⟩ := reportOffer_some hoffer
  obtain ⟨helink, hehail, hepending, -⟩ := emit_link s owner ch
  have hsame : (s.emit owner ch).started = s.started := by rw [State.started, State.emit_start]; rfl
  rw [State.linkSound, State.emit_mgmt, State.emit_start, hsame, helink, hehail, hepending]
  exact ⟨fun h => (by cases h.symm.trans hsome), hstarted, fun h => (by cases h.symm.trans hlink), hnormal, halert⟩

theorem Effect.keeps_linkSound {c : Instr} {s t : State} (h : Effect c s t) (hs : s.linkSound) : t.linkSound := by
  have ⟨howner, hstarted, hdeaf, hnormal, halert⟩ := hs
  have hnoDeaf : s.started = false → s.emitter.link ≠ .deaf := fun hnot hlink => (hdeaf hlink).1 (hstarted hnot)
  cases h with
  | pinReset =>
    exact ⟨howner, hstarted, fun h => (by cases h), fun _ => ⟨rfl, rfl⟩, by simp [State.pinReset, Emitter.linkNormal]⟩
  | enterScrub =>
    exact ⟨fun _ => ⟨rfl, rfl⟩, fun _ => rfl, fun h => (by cases h), fun _ => ⟨rfl, rfl⟩,
      by simp [State.enterScrub, StartController.enterScrub, Emitter.atReset]⟩
  | trunkStarted hpart | loadBegins hpart =>
    have hnot : s.started = false := by simp [State.started, hpart]
    exact ⟨howner, fun _ => hstarted hnot, hdeaf, hnormal, halert⟩
  | loadFails => exact ⟨howner, fun h => (by cases h), hdeaf, hnormal, by simp [State.loadFails]⟩
  | loaded hpart =>
    have hnot : s.started = false := by simp [State.started, hpart]
    refine ⟨fun _ => howner (hstarted hnot), fun h => ?_, fun h => absurd h (hnoDeaf hnot), hnormal, halert⟩
    cases hrun : s.start.loader.run <;> simp [State.started, StartController.loaded, hrun] at h
  | completeCopy | refuseCommit | completeCommit => exact linkSound_finalResponse hs ..
  | hold => exact ⟨howner, fun h => (by cases h), hdeaf, hnormal, halert⟩
  | release => exact ⟨howner, fun h => (by cases h), hdeaf, hnormal, by simp [StartController.clearStartAlert]⟩
  | takeMark n => exact linkSound_takeMark hs n
  | endDeaf => exact linkSound_endDeaf hs
  | changeOwner o hstarted => exact linkSound_changeOwner hs o hstarted
  | sweepStarts scope hsome => exact ⟨fun h => absurd h hsome, hstarted, hdeaf, hnormal, halert⟩
  | sweepStops hactive =>
    have hsome : s.mgmt.owner ≠ none := fun h => by cases hactive.symm.trans (howner h).2
    exact ⟨fun h => absurd h hsome, hstarted, hdeaf, hnormal, halert⟩
  | acked n hlink =>
    refine ⟨fun h => ⟨?_, (howner h).2⟩, hstarted, fun h => (by cases h.symm.trans hlink), hnormal, halert⟩
    simp [Emitter.acked, (howner h).1]
  | warm => exact ⟨fun _ => ⟨rfl, rfl⟩, fun h => (by cases h), fun h => (by cases h), fun _ => ⟨rfl, rfl⟩,
      by simp [State.warm, StartController.warm, Emitter.warm, Emitter.linkNormal]⟩
  | flagOldest o rest hlist _ hdue =>
    have hrunning := Timer.isRunning_of_isDue hdue
    have hflag : s.emitter.flagOldest =
        { s.emitter with outstanding := { o with retry := o.retry + 1, transmit := .flagged } :: rest, ackTimer := .stopped } := by
      simp only [Emitter.flagOldest, hlist]
    rw [hflag]
    refine ⟨fun h => ?_, hstarted, fun h => ?_, hnormal, halert⟩
    · have := (howner h).1; rw [hlist] at this; cases this
    · have := (hdeaf h).2.2.2; rw [hrunning] at this; cases this
  | goDeaf hlist =>
    have hsome : s.mgmt.owner ≠ none := fun h => hlist (howner h).1
    exact ⟨fun h => absurd h hsome, hstarted, fun _ => ⟨hsome, hlist, rfl, rfl⟩, fun h => (by cases h), by simp [State.goDeaf]⟩
  | hailDue hlink =>
    have ⟨hsome, hlist, _, hack⟩ := hdeaf hlink
    exact ⟨howner, hstarted, fun _ => ⟨hsome, hlist, rfl, hack⟩, fun h => (by cases h.symm.trans hlink), halert⟩
  | hailSent => exact ⟨howner, hstarted, hdeaf, fun h => ⟨(hnormal h).1, rfl⟩, halert⟩
  | copyEnds n =>
    refine ⟨fun h => ⟨?_, (howner h).2⟩, hstarted, fun h => ?_, hnormal, halert⟩
    · simp [Emitter.copyEnds, endCopy, (howner h).1]
    · have ⟨hsome, hlist, hhail, hack⟩ := hdeaf h
      exact ⟨hsome, by simpa [Emitter.copyEnds, endCopy] using hlist, hhail, copyEnds_deaf (e := s.emitter) h hack _ _⟩
  | emits owner ch hoffer => exact linkSound_emit hs hoffer
  | _ => exact hs

theorem linkSound_tick (s : State) (hs : s.linkSound) : s.tick.linkSound := by
  obtain ⟨howner, hstarted, hdeaf, hnormal, halert⟩ := hs
  refine ⟨howner, hstarted, fun h => ?_, fun h => ?_, halert⟩
  · obtain ⟨hsome, hlist, hhail, hack⟩ := hdeaf h
    exact ⟨hsome, hlist, (tick_isRunning _).trans hhail, (tick_isRunning _).trans hack⟩
  · obtain ⟨hhail, hpending⟩ := hnormal h
    exact ⟨(tick_isRunning _).trans hhail, hpending⟩

/-- Settles O59, effect by effect. -/
theorem stepKeepsLinkSound : Obligations.StepKeepsLinkSound :=
  step_keeps (fun _ _ hs => hs) linkSound_tick fun _ _ _ h hs => h.keeps_linkSound hs

end Sys2Proof.Machine
end

section
/-!
PROOFS. Settings, credits and retry counts stay in range (R79, R86, R168).
-/

namespace Sys2Proof.Machine

set_option Elab.async false

/-! ## Settings -/

/-- Class settings in their ranges (R86). -/
abbrev classesInRange (p : PerClass ClassSetting) : Prop := ∀ c : ReportClass, (p.get c).inRange

theorem atReset_inRange : classesInRange (.ofFn ClassSetting.atReset) := by
  intro c
  rw [PerClass.get_ofFn]
  exact ⟨by simp [ClassSetting.atReset], by simp [ClassSetting.atReset], by simp [ClassSetting.atReset]⟩

theorem partSettings_atReset_inRange : PartSettings.atReset.inRange := by decide

theorem classesInRange_set {p : PerClass ClassSetting} (h : classesInRange p) (d : ReportClass) {x : ClassSetting} (hx : x.inRange) :
    classesInRange (p.set d x) := by
  intro c
  rw [PerClass.get_set]
  split
  · exact hx
  · exact h c

/-- A value that is in range stays so under a present field in range. -/
theorem getD_onStep {f : Option Nat} {low high step old : Nat} (hf : f.all (onStep low high step) = true)
    (hold : onStep low high step old = true) : onStep low high step (f.getD old) = true := by
  cases f with
  | none => exact hold
  | some n => exact hf

/-- Present fields in range keep the settings in range (R168). -/
theorem apply_inRange {f : PartFields} (hf : f.inRange = true) {p : PartSettings} (hp : p.inRange) : (f.apply p).inRange := by
  simp only [PartFields.inRange, Bool.and_eq_true] at hf
  obtain ⟨⟨⟨⟨⟨⟨hack, hretry⟩, hhail⟩, -⟩, -⟩, -⟩, -⟩ := hf
  obtain ⟨pack, pretry, phail⟩ := hp
  exact ⟨getD_onStep hack pack, getD_onStep hretry pretry, getD_onStep hhail phail⟩

/-! ## The Emitter -/

/-- The class settings in range, the credits within their limits, the retry counts at most 7 (R79, R86). -/
abbrev Emitter.sound (e : Emitter) : Prop :=
  (∀ c : ReportClass, (e.classes.get c).inRange ∧ e.credits.get c ≤ (e.classes.get c).creditLimit) ∧
    ∀ o ∈ e.outstanding, o.retry ≤ 7

/-- The Start Controller's settings, current and pending, in range. -/
abbrev StartController.inRange (x : StartController) : Prop :=
  x.settings.inRange ∧ classesInRange x.loader.classes ∧ x.loader.settings.inRange

theorem settingsSound_iff (s : State) : s.settingsSound ↔ s.emitter.sound ∧ s.start.inRange := by
  simp only [State.settingsSound]
  tauto

theorem emitter_sound_atReset : Emitter.atReset.sound := by
  refine ⟨fun c => ⟨atReset_inRange c, ?_⟩, by simp [Emitter.atReset]⟩
  simp [Emitter.atReset, ClassSetting.atReset]

theorem emitter_sound_setClass {e : Emitter} (h : e.sound) (d : ReportClass) {x : ClassSetting} (hx : x.inRange) :
    (e.setClass d x).sound := by
  obtain ⟨hclasses, hretry⟩ := h
  refine ⟨fun c => ?_, hretry⟩
  simp only [Emitter.setClass, PerClass.get_set]
  split
  · exact ⟨hx, Nat.min_le_left ..⟩
  · exact hclasses c

theorem emitter_sound_refilled {e : Emitter} (h : e.sound) (d : ReportClass) : (e.refilled d).sound := by
  obtain ⟨hclasses, hretry⟩ := h
  refine ⟨fun c => ⟨(hclasses c).1, ?_⟩, hretry⟩
  simp only [Emitter.refilled]
  split
  · rename_i hbelow
    rw [PerClass.get_set]
    split
    · rename_i hc; rw [hc]; exact hbelow
    · exact (hclasses c).2
  · exact (hclasses c).2

theorem emitter_sound_pay {e : Emitter} (h : e.sound) (d : ReportClass) : (e.pay d).sound := by
  obtain ⟨hclasses, hretry⟩ := h
  simp only [Emitter.pay]
  split
  · exact ⟨hclasses, hretry⟩
  · refine ⟨fun c => ⟨(hclasses c).1, ?_⟩, hretry⟩
    rw [PerClass.get_set]
    split
    · rename_i hc; rw [hc]; exact (Nat.sub_le ..).trans (hclasses d).2
    · exact (hclasses c).2

/-- The credits at the limits of settings in range. -/
theorem emitter_sound_full {e : Emitter} {classes : PerClass ClassSetting} (hclasses : classesInRange classes)
    (hcurrent : e.classes = classes) (hcredits : e.credits = .ofFn fun c => (classes.get c).creditLimit)
    (hretry : ∀ o ∈ e.outstanding, o.retry ≤ 7) : e.sound := by
  refine ⟨fun c => ?_, hretry⟩
  rw [hcurrent, hcredits, PerClass.get_ofFn]
  exact ⟨hclasses c, le_rfl⟩

theorem retry_append {l : List Outstanding} (h : ∀ o ∈ l, o.retry ≤ 7) (r : Report) (number : Word) (lost : Nat) :
    ∀ o ∈ l ++ [emitted r number lost], o.retry ≤ 7 := by
  intro o ho
  obtain ho | ho := List.mem_append.mp ho
  · exact h o ho
  · rw [List.mem_singleton.mp ho]; exact Nat.zero_le _

theorem emitter_sound_emit {s : State} (h : s.emitter.sound) (owner : Node) (ch : Choice) : (s.emit owner ch).emitter.sound := by
  cases ch with
  | retransmit o =>
    refine ⟨h.1, fun x hx => ?_⟩
    obtain ⟨y, hy, rfl⟩ := List.mem_map.mp hx
    have := h.2 y hy
    split <;> exact this
  | urgent r => exact ⟨h.1, retry_append h.2 _ _ _⟩
  | fromClass d r =>
    obtain ⟨hclasses, hretry⟩ := emitter_sound_pay h d
    exact ⟨hclasses, retry_append hretry _ _ _⟩
  | sweep => exact ⟨h.1, retry_append h.2 _ _ _⟩

theorem emitter_sound_changeOwner {s : State} (h : s.emitter.sound) (o : Option Node) : (s.changeOwner o).emitter.sound := by
  refine ⟨?_, by simp⟩
  cases hlink : s.emitter.link <;> simpa [State.changeOwner, State.emitterOwnerChange, hlink, Emitter.linkNormal] using h.1

theorem inRange_changeOwner {s : State} (h : s.start.inRange) (o : Option Node) : (s.changeOwner o).start.inRange := by
  cases hlink : s.emitter.link <;>
    simpa [State.changeOwner, State.emitterOwnerChange, hlink, StartController.dropAlert] using h

/-! ## Every effect -/

theorem Effect.keeps_settingsSound {c : Instr} {s t : State} (h : Effect c s t) (hs : s.settingsSound) : t.settingsSound := by
  have ⟨hemitter, hstart⟩ := (settingsSound_iff s).mp hs
  have ⟨hclasses, hretry⟩ := hemitter
  have ⟨hsettings, hpendingClasses, hpendingSettings⟩ := hstart
  refine (settingsSound_iff t).mpr ?_
  cases h with
  | pinReset => exact ⟨hemitter, hsettings, atReset_inRange, partSettings_atReset_inRange⟩
  | enterScrub =>
    exact ⟨emitter_sound_atReset, partSettings_atReset_inRange, atReset_inRange, partSettings_atReset_inRange⟩
  | loadBegins | loadFails => exact ⟨hemitter, hsettings, atReset_inRange, partSettings_atReset_inRange⟩
  | readsOn l hc hp =>
    refine ⟨hemitter, hsettings, ?_, ?_⟩
    · change classesInRange l.classes; rwa [hc]
    · change l.settings.inRange; rwa [hp]
  | loadsClass d x hx => exact ⟨hemitter, hsettings, classesInRange_set hpendingClasses d hx, hpendingSettings⟩
  | loadsSettings f hf => exact ⟨hemitter, hsettings, hpendingClasses, apply_inRange hf hpendingSettings⟩
  | loaded =>
    exact ⟨emitter_sound_full hpendingClasses rfl rfl hretry, hpendingSettings, atReset_inRange, partSettings_atReset_inRange⟩
  | completeCopy => simp only [State.completeCopy, State.finalResponse_emitter, State.finalResponse_start]; exact ⟨hemitter, hstart⟩
  | refuseCommit => simp only [State.refuseCommit, State.finalResponse_emitter, State.finalResponse_start]; exact ⟨hemitter, hstart⟩
  | completeCommit =>
    simp only [State.completeCommit, State.finalResponse_emitter, State.finalResponse_start]; exact ⟨hemitter, hstart⟩
  | takeMark => rw [State.takeMark_emitter, State.takeMark_start]; exact ⟨hemitter, hstart⟩
  | endDeaf =>
    cases hlink : s.emitter.link
    · rw [endDeaf_normal hlink]; exact ⟨hemitter, hstart⟩
    · rw [endDeaf_deaf hlink]; exact ⟨⟨hclasses, by simp⟩, hstart⟩
  | changeOwner o => exact ⟨emitter_sound_changeOwner hemitter o, inRange_changeOwner hstart o⟩
  | setClass d x hx => exact ⟨emitter_sound_setClass hemitter d hx, hstart⟩
  | setPart f hf => exact ⟨hemitter, apply_inRange hf hsettings, hpendingClasses, hpendingSettings⟩
  | acked n => exact ⟨⟨hclasses, fun o ho => hretry o (List.mem_of_mem_drop ho)⟩, hstart⟩
  | warm => exact ⟨emitter_sound_full (fun d => (hclasses d).1) rfl rfl (by simp [State.warm, Emitter.warm]), hstart⟩
  | flagOldest o rest hlist hlimit =>
    have hmax : s.start.settings.retryLimit ≤ 7 := by
      have := hsettings.2.1
      simp [onStep] at this
      omega
    refine ⟨⟨?_, ?_⟩, hstart⟩
    · simp only [Emitter.flagOldest, hlist]; exact hclasses
    · simp only [Emitter.flagOldest, hlist, State.withEmitter_emitter, List.forall_mem_cons]
      rw [hlist, List.forall_mem_cons] at hretry
      exact ⟨by omega, hretry.2⟩
  | refilled d => exact ⟨emitter_sound_refilled hemitter d, hstart⟩
  | copyEnds n =>
    refine ⟨⟨hclasses, fun x hx => ?_⟩, hstart⟩
    obtain ⟨y, hy, rfl⟩ := List.mem_map.mp hx
    have := hretry y hy
    split <;> exact this
  | emits owner ch => rw [State.emit_start]; exact ⟨emitter_sound_emit hemitter owner ch, hstart⟩
  | _ => exact ⟨hemitter, hstart⟩

/-- Settles O58, effect by effect; time touches no setting. -/
theorem stepKeepsSettingsSound : Obligations.StepKeepsSettingsSound :=
  step_keeps (fun _ _ hs => hs) (fun _ hs => hs) fun _ _ _ h hs => h.keeps_settingsSound hs

end Sys2Proof.Machine
end

section
/-!
PROOFS. At most 32 outstanding records of consecutive numbers, and the ack wait timer with the oldest of them (R79, R84, R89).
-/

namespace Sys2Proof.Machine

set_option Elab.async false

/-! ## Consecutive numbers -/

/-- The next number follows the numbers that are out (R84). -/
theorem consecutiveNumbers_succ (next : Word) (n : Nat) :
    consecutiveNumbers (next + 1) (n + 1) = consecutiveNumbers next n ++ [next] := by
  simp only [consecutiveNumbers, List.range_succ, List.map_append, List.map_cons, List.map_nil]
  congr 1
  · refine List.map_congr_left fun i hi => ?_
    have hlt : i < n := List.mem_range.mp hi
    rw [show n + 1 - i = (n - i) + 1 by omega, BitVec.ofNat_add]
    exact add_sub_add_right_eq_sub next _ _
  · rw [Nat.add_sub_cancel_left]
    simp

/-- Removing the oldest leaves consecutive numbers (R91). -/
theorem consecutiveNumbers_drop (next : Word) (n k : Nat) :
    (consecutiveNumbers next n).drop k = consecutiveNumbers next (n - k) := by
  refine List.ext_getElem (by simp [consecutiveNumbers]) fun i h _ => ?_
  simp only [consecutiveNumbers, List.length_drop, List.length_map, List.length_range] at h
  simp only [consecutiveNumbers, List.getElem_drop, List.getElem_map, List.getElem_range]
  rw [Nat.sub_add_eq]

/-- No number is out twice (R79). -/
theorem consecutiveNumbers_nodup (next : Word) {n : Nat} (h : n ≤ Config.outstandingCapacity) : (consecutiveNumbers next n).Nodup := by
  refine List.Nodup.map_on (fun i hi j hj heq => ?_) List.nodup_range
  have hi' : i < n := List.mem_range.mp hi
  have hj' : j < n := List.mem_range.mp hj
  have hn : n ≤ 32 := h
  have hsub : BitVec.ofNat 16 (n - i) = BitVec.ofNat 16 (n - j) := by bv_omega
  have hnat := congrArg BitVec.toNat hsub
  simp only [BitVec.toNat_ofNat] at hnat
  omega

/-! ## The outstanding list and its timer -/

/-- At most 32 outstanding records, with consecutive numbers (R79). -/
abbrev Emitter.numbered (e : Emitter) : Prop :=
  e.outstanding.length ≤ Config.outstandingCapacity ∧
    e.outstanding.map Outstanding.number = consecutiveNumbers e.nextNumber e.outstanding.length

/-- The ack wait timer runs exactly while the oldest record is SENT and the link NORMAL (R89). -/
abbrev Emitter.timed (e : Emitter) : Prop :=
  e.ackTimer.isRunning = true ↔ oldestIsSent e.outstanding = true ∧ e.link = .normal

/-- Whatever keeps the numbers in their places keeps the list numbered. -/
theorem numbered_of_numbers {e : Emitter} (h : e.numbered) {l : List Outstanding}
    (hl : l.map Outstanding.number = e.outstanding.map Outstanding.number) :
    l.length ≤ Config.outstandingCapacity ∧ l.map Outstanding.number = consecutiveNumbers e.nextNumber l.length := by
  have hlength : l.length = e.outstanding.length := by simpa using congrArg List.length hl
  rw [hlength, hl]
  exact h

theorem ackTimerFor_running (link : Link) (ackWait : Nat) (l : List Outstanding) :
    (ackTimerFor link ackWait l).isRunning = true ↔ oldestIsSent l = true ∧ link = .normal := by
  cases l with
  | nil => simp [ackTimerFor, oldestIsSent]
  | cons o rest =>
    simp only [ackTimerFor, oldestIsSent, decide_eq_true_eq]
    split
    · rename_i h; simp [h]
    · rename_i h; simp [h]

/-- With the link DEAF the timer is stopped (R94). -/
theorem stopped_of_timed_deaf {e : Emitter} (h : e.timed) (hlink : e.link = .deaf) : e.ackTimer.isRunning = false := by
  rw [Bool.eq_false_iff]
  intro hrunning
  cases hlink.symm.trans (h.mp hrunning).2

theorem endCopy_numbers (n : Word) (l : List Outstanding) :
    (endCopy n l).map Outstanding.number = l.map Outstanding.number := by
  simp only [endCopy, List.map_map]
  refine List.map_congr_left fun o _ => ?_
  simp only [Function.comp]
  split <;> rfl

theorem setTransmit_numbers (n : Word) (x : TransmitState) (l : List Outstanding) :
    (setTransmit n x l).map Outstanding.number = l.map Outstanding.number := by
  simp only [setTransmit, List.map_map]
  refine List.map_congr_left fun o _ => ?_
  simp only [Function.comp]
  split <;> rfl

/-- The end of a copy that is not the oldest's leaves the oldest as it is. -/
theorem oldestIsSent_endCopy {n : Word} {l : List Outstanding} (h : oldestIsSending n l = false) :
    oldestIsSent (endCopy n l) = oldestIsSent l := by
  cases l with
  | nil => rfl
  | cons o rest =>
    have hnot : ¬(o.number = n ∧ o.transmit = .sending) := by simpa [oldestIsSending] using h
    simp [endCopy, oldestIsSent, hnot]

theorem timed_copyEnds {e : Emitter} (h : e.timed) (ackWait : Nat) (n : Word) : (e.copyEnds ackWait n).timed := by
  simp only [Emitter.timed, Emitter.copyEnds]
  split
  · exact ackTimerFor_running ..
  · rename_i hnot
    rw [oldestIsSent_endCopy (by simpa using hnot)]
    exact h

/-- A new record at the back, still being sent, does not make the oldest one SENT. -/
theorem oldestIsSent_append {l : List Outstanding} {o : Outstanding} (h : o.transmit = .sending) :
    oldestIsSent (l ++ [o]) = oldestIsSent l := by
  cases l with
  | nil => simp [oldestIsSent, h]
  | cons x rest => rfl

/-- A FLAGGED record sent again was not the timer's, nor is it while it is being sent. -/
theorem oldestIsSent_retransmit {l : List Outstanding} {o : Outstanding} (hmem : o ∈ l) (hflagged : o.transmit = .flagged)
    (hnodup : (l.map Outstanding.number).Nodup) : oldestIsSent (setTransmit o.number .sending l) = oldestIsSent l := by
  cases l with
  | nil => rfl
  | cons x rest =>
    simp only [setTransmit, List.map_cons, oldestIsSent]
    by_cases hx : x.number = o.number
    · have hxo : x = o := List.inj_on_of_nodup_map hnodup (by simp) hmem hx
      simp [hxo, hflagged]
    · rw [if_neg hx]

/-! ## The Emitter's choice -/

/-- What the choice can be: a FLAGGED record, or a first emission while the list has a free place (R82). -/
theorem choice_cases {s : State} {ch : Choice} (h : s.choice = some ch) :
    (∃ o, ch = .retransmit o ∧ o ∈ s.emitter.outstanding ∧ o.transmit = .flagged) ∨
      s.emitter.outstanding.length < Config.outstandingCapacity ∧ ∀ o, ch ≠ .retransmit o := by
  simp only [State.choice] at h
  split at h
  · rename_i o hfind
    cases h
    exact .inl ⟨o, rfl, List.mem_of_find?_eq_some hfind, by simpa using List.find?_some hfind⟩
  · split at h
    · rename_i hroom
      refine .inr ⟨hroom, fun o ho => ?_⟩
      subst ho
      split at h
      · cases h
      · simp only [State.contest] at h
        split at h
        · split at h
          · cases h
          · simp at h
        · split at h <;> cases h
    · cases h

/-- A first emission puts one record at the back, under the next number, SENDING (R84). -/
theorem emit_first (s : State) (owner : Node) {ch : Choice} (h : ∀ o, ch ≠ .retransmit o) :
    ∃ o, o.number = s.emitter.nextNumber ∧ o.transmit = .sending ∧
      (s.emit owner ch).emitter.outstanding = s.emitter.outstanding ++ [o] ∧
      (s.emit owner ch).emitter.nextNumber = s.emitter.nextNumber + 1 := by
  cases ch with
  | retransmit o => exact absurd rfl (h o)
  | urgent r => exact ⟨_, rfl, rfl, rfl, rfl⟩
  | fromClass d r =>
    obtain ⟨credits, hpay⟩ := pay_eq s.emitter d
    simp only [State.emit, State.emitFirst, State.send, hpay]
    exact ⟨_, rfl, rfl, rfl, rfl⟩
  | sweep => exact ⟨_, rfl, rfl, rfl, rfl⟩

/-! ## Every effect -/

theorem outstandingSound_iff (s : State) :
    s.outstandingSound ↔ s.emitter.numbered ∧ (s.start.resetHeld = false → s.emitter.timed) := and_assoc.symm

theorem numbered_nil {e : Emitter} (h : e.outstanding = []) : e.numbered := by
  simp [Emitter.numbered, h, consecutiveNumbers]

theorem timed_nil {e : Emitter} (h : e.outstanding = []) (hack : e.ackTimer = .stopped) : e.timed := by
  simp [Emitter.timed, h, hack, oldestIsSent]

theorem numbered_emit {s : State} (hs : s.emitter.numbered) (owner : Node) {ch : Choice} (h : s.choice = some ch) :
    (s.emit owner ch).emitter.numbered := by
  obtain ⟨o, rfl, -, -⟩ | ⟨hroom, hfirst⟩ := choice_cases h
  · exact numbered_of_numbers hs (setTransmit_numbers ..)
  · obtain ⟨o, hnumber, -, hlist, hnext⟩ := emit_first s owner hfirst
    obtain ⟨-, hnumbers⟩ := hs
    rw [Emitter.numbered, hlist, hnext, List.length_append, List.map_append, hnumbers, List.length_singleton,
      consecutiveNumbers_succ, List.map_singleton, hnumber]
    exact ⟨hroom, rfl⟩

theorem timed_emit {s : State} (hs : s.emitter.timed) (hnumbered : s.emitter.numbered) (owner : Node) {ch : Choice}
    (h : s.choice = some ch) : (s.emit owner ch).emitter.timed := by
  obtain ⟨hlink, -, -, hack⟩ := emit_link s owner ch
  rw [Emitter.timed, hlink, hack]
  obtain ⟨o, rfl, hmem, hflagged⟩ | ⟨-, hfirst⟩ := choice_cases h
  · have hnodup : (s.emitter.outstanding.map Outstanding.number).Nodup := by
      rw [hnumbered.2]; exact consecutiveNumbers_nodup _ hnumbered.1
    change _ ↔ oldestIsSent (setTransmit o.number .sending s.emitter.outstanding) = true ∧ _
    rw [oldestIsSent_retransmit hmem hflagged hnodup]
    exact hs
  · obtain ⟨o, -, hsending, hlist, -⟩ := emit_first s owner hfirst
    rw [hlist, oldestIsSent_append hsending]
    exact hs

theorem Effect.keeps_outstandingSound {c : Instr} {s t : State} (h : Effect c s t) (hs : s.outstandingSound) : t.outstandingSound := by
  have ⟨hnumbered, htimed⟩ := (outstandingSound_iff s).mp hs
  refine (outstandingSound_iff t).mpr ?_
  cases h with
  | pinReset => exact ⟨hnumbered, fun h => by cases h⟩
  | enterScrub => exact ⟨numbered_nil rfl, fun _ => timed_nil rfl rfl⟩
  | completeCopy => simp only [State.completeCopy, State.finalResponse_emitter, State.finalResponse_start]; exact ⟨hnumbered, htimed⟩
  | refuseCommit => simp only [State.refuseCommit, State.finalResponse_emitter, State.finalResponse_start]; exact ⟨hnumbered, htimed⟩
  | completeCommit =>
    simp only [State.completeCommit, State.finalResponse_emitter, State.finalResponse_start]; exact ⟨hnumbered, htimed⟩
  | takeMark => rw [State.takeMark_emitter, State.takeMark_start]; exact ⟨hnumbered, htimed⟩
  | endDeaf =>
    cases hlink : s.emitter.link
    · rw [endDeaf_normal hlink]; exact ⟨hnumbered, htimed⟩
    · rw [endDeaf_deaf hlink]
      refine ⟨numbered_of_numbers hnumbered (by simp), fun h => ?_⟩
      have hstopped := stopped_of_timed_deaf (htimed h) hlink
      cases hlist : s.emitter.outstanding <;> simp [Emitter.timed, hstopped, oldestIsSent]
  | changeOwner o =>
    refine ⟨numbered_nil (changeOwner_outstanding s o), fun _ => timed_nil (changeOwner_outstanding s o) ?_⟩
    cases hlink : s.emitter.link <;> simp [State.changeOwner, State.emitterOwnerChange, hlink]
  | acked n =>
    refine ⟨⟨?_, ?_⟩, fun _ => ackTimerFor_running ..⟩
    · simp only [State.withEmitter_emitter, Emitter.acked, List.length_drop]
      exact (Nat.sub_le ..).trans hnumbered.1
    · simp only [State.withEmitter_emitter, Emitter.acked, List.length_drop, List.map_drop, hnumbered.2, consecutiveNumbers_drop]
  | warm => exact ⟨numbered_nil rfl, fun _ => timed_nil rfl rfl⟩
  | flagOldest o rest hlist =>
    refine ⟨?_, fun _ => ?_⟩
    · rw [Emitter.numbered, hlist] at hnumbered
      simp only [State.withEmitter_emitter, Emitter.flagOldest, hlist]
      exact hnumbered
    · simp [Emitter.flagOldest, hlist, oldestIsSent, Emitter.timed]
  | goDeaf => exact ⟨hnumbered, fun _ => by simp [State.goDeaf, Emitter.timed]⟩
  | copyEnds n => exact ⟨numbered_of_numbers hnumbered (endCopy_numbers ..), fun h => timed_copyEnds (htimed h) ..⟩
  | emits owner ch hoffer =>
    obtain ⟨-, -, -, hchoice⟩ := reportOffer_some hoffer
    rw [State.emit_start]
    exact ⟨numbered_emit hnumbered owner hchoice, fun h => timed_emit (htimed h) hnumbered owner hchoice⟩
  | _ => exact ⟨hnumbered, htimed⟩

theorem outstandingSound_tick (s : State) (hs : s.outstandingSound) : s.tick.outstandingSound := by
  obtain ⟨hnumbered, htimed⟩ := (outstandingSound_iff s).mp hs
  refine (outstandingSound_iff _).mpr ⟨hnumbered, fun h => ?_⟩
  change s.emitter.ackTimer.tick.isRunning = true ↔ _
  rw [tick_isRunning]
  exact htimed h

/-- Settles O57, effect by effect. -/
theorem stepKeepsOutstandingSound : Obligations.StepKeepsOutstandingSound :=
  step_keeps (fun _ _ hs => hs) outstandingSound_tick fun _ _ _ h hs => h.keeps_outstandingSound hs

end Sys2Proof.Machine
end

section
/-!
PROOFS. The laws of the class lists and the urgent list (R57, R58, R60, R62, R66, R67), through adding, taking and the return after an
owner change.
-/

namespace Sys2Proof.Machine

set_option Elab.async false

/-! ## The records of a queue -/

/-- The counts of a record in their ranges (R57). -/
abbrev Report.counted (r : Report) : Prop :=
  1 ≤ r.repeatCount ∧ r.repeatCount ≤ Config.countMax ∧ r.lostBefore ≤ Config.countMax

/-- A record that may stand in the queue (R57, R58). -/
abbrev Report.queueable (r : Report) : Prop := r.isSweep = false ∧ r.counted

/-- Every record stands where its class and its mark put it, and the lost counts are in range (R57, R58, R62, R66, R67). -/
abbrev ReportQueue.lawful (q : ReportQueue) : Prop :=
  (∀ c : ReportClass, ∀ r ∈ q.lists.get c, (r.cls = c ∧ r.urgent = false) ∧ r.queueable) ∧
    (∀ r ∈ q.urgent, r.urgent = true ∧ r.queueable) ∧ ∀ c : ReportClass, q.lost.get c ≤ Config.countMax

/-- The lists within their capacities (R60). -/
abbrev ReportQueue.bounded (q : ReportQueue) : Prop :=
  q.pooled ≤ Config.poolCapacity ∧ q.urgent.length ≤ Config.urgentCapacity

/-- The law of the queue, and the counts of the outstanding records. -/
theorem queueSound_iff (s : State) :
    s.queueSound ↔ (s.queue.lawful ∧ s.queue.bounded) ∧ ∀ o ∈ s.emitter.outstanding, o.report.counted := by
  have hrecords : (∀ r ∈ s.records, r.counted) ↔
      (∀ r ∈ s.queue.unsent, r.counted) ∧ ∀ o ∈ s.emitter.outstanding, o.report.counted := by
    rw [State.records, List.forall_mem_append, List.forall_mem_map]
  rw [State.queueSound, hrecords]
  constructor
  · rintro ⟨hlists, hmarks, hpooled, hplaces, hsweep, hlost, hcounts, hout⟩
    have hqueueable : ∀ r ∈ s.queue.unsent, r.queueable := fun r hr => ⟨hsweep r hr, hcounts r hr⟩
    exact ⟨⟨⟨fun c r hr => ⟨hlists c r hr, hqueueable r ((mem_unsent ..).mpr (.inr ⟨c, hr⟩))⟩,
      fun r hr => ⟨hmarks r hr, hqueueable r ((mem_unsent ..).mpr (.inl hr))⟩, hlost⟩, hpooled, hplaces⟩, hout⟩
  · rintro ⟨⟨⟨hlists, hmarks, hlost⟩, hpooled, hplaces⟩, hout⟩
    have hqueueable : ∀ r ∈ s.queue.unsent, r.queueable := fun r hr =>
      ((mem_unsent ..).mp hr).elim (fun h => (hmarks r h).2) fun ⟨c, h⟩ => (hlists c r h).2
    exact ⟨fun c r hr => (hlists c r hr).1, fun r hr => (hmarks r hr).1, hpooled, hplaces, fun r hr => (hqueueable r hr).1, hlost,
      fun r hr => (hqueueable r hr).2, hout⟩

/-- The number of records once one class list is replaced. -/
theorem pooled_setList (q : ReportQueue) (c : ReportClass) (l : List Report) :
    (q.setList c l).pooled + (q.lists.get c).length = q.pooled + l.length := by
  obtain ⟨⟨l0, l1, l2, l3, l4, l5, l6, l7⟩, u, x⟩ := q
  fin_cases c <;> simp [ReportQueue.pooled, ReportQueue.setList, PerClass.set, PerClass.ofFn, PerClass.toList, PerClass.get] <;> omega

/-! ## Adding -/

theorem lawful_setList {q : ReportQueue} (h : q.lawful) (c : ReportClass) {l : List Report}
    (hl : ∀ r ∈ l, (r.cls = c ∧ r.urgent = false) ∧ r.queueable) : (q.setList c l).lawful := by
  obtain ⟨hlists, hrest⟩ := h
  refine ⟨fun d r hr => ?_, hrest⟩
  simp only [ReportQueue.setList, PerClass.get_set] at hr
  split at hr
  · rename_i hd; rw [hd]; exact hl r hr
  · exact hlists d r hr

theorem lawful_lost {q : ReportQueue} (h : q.lawful) (c : ReportClass) {n : Nat} (hn : n ≤ Config.countMax) :
    ReportQueue.lawful { q with lost := q.lost.set c n } := by
  obtain ⟨hlists, hmarks, hlost⟩ := h
  refine ⟨hlists, hmarks, fun d => ?_⟩
  rw [PerClass.get_set]
  split
  · exact hn
  · exact hlost d

theorem lawful_countLost {q : ReportQueue} (h : q.lawful) (c : ReportClass) : (q.countLost c).lawful :=
  lawful_lost h c (Nat.min_le_left ..)

theorem lawful_evict {q : ReportQueue} (h : q.lawful) (c : ReportClass) : (q.evict c).lawful :=
  lawful_countLost (lawful_setList h c fun r hr => h.1 c r (List.mem_of_mem_tail hr)) c

theorem lawful_join {q : ReportQueue} (h : q.lawful) {r : Report} (hr : r.queueable) (front : Bool) : (q.join r front).lawful := by
  have hnew : ({ r with urgent := false } : Report).queueable := hr
  refine lawful_setList h r.cls fun x hx => ?_
  have hmem : x = { r with urgent := false } ∨ x ∈ q.lists.get r.cls := by
    cases front <;> simpa [or_comm] using hx
  obtain rfl | hx := hmem
  · exact ⟨⟨rfl, rfl⟩, hnew⟩
  · exact h.1 _ x hx

/-- Rewriting the records keeps the law if it keeps class, mark and the ranges of the counts. -/
theorem lawful_mapRecords {q : ReportQueue} (h : q.lawful) {f : Report → Report}
    (hf : ∀ r, r.queueable → (f r).cls = r.cls ∧ (f r).urgent = r.urgent ∧ (f r).queueable) : (q.mapRecords f).lawful := by
  obtain ⟨hlists, hmarks, hlost⟩ := h
  refine ⟨fun c r hr => ?_, fun r hr => ?_, hlost⟩
  · simp only [ReportQueue.mapRecords, PerClass.get_ofFn] at hr
    obtain ⟨x, hx, rfl⟩ := List.mem_map.mp hr
    obtain ⟨⟨hcls, hmark⟩, hqueueable⟩ := hlists c x hx
    obtain ⟨hfcls, hfmark, hfq⟩ := hf x hqueueable
    exact ⟨⟨hfcls.trans hcls, hfmark.trans hmark⟩, hfq⟩
  · obtain ⟨x, hx, rfl⟩ := List.mem_map.mp hr
    obtain ⟨hmark, hqueueable⟩ := hmarks x hx
    obtain ⟨-, hfmark, hfq⟩ := hf x hqueueable
    exact ⟨hfmark.trans hmark, hfq⟩

theorem mapRecords_pooled (q : ReportQueue) (f : Report → Report) : (q.mapRecords f).pooled = q.pooled := by
  simp [pooled_eq, ReportQueue.mapRecords]

theorem bounded_mapRecords {q : ReportQueue} (h : q.bounded) (f : Report → Report) : (q.mapRecords f).bounded := by
  refine ⟨by rw [mapRecords_pooled]; exact h.1, ?_⟩
  simpa [ReportQueue.mapRecords] using h.2

/-- A coalesced record keeps its place (R65). -/
theorem queueable_coalesced (r : Report) {x : Report} (hx : x.queueable) : (r.coalesced x).queueable := by
  obtain ⟨hsweep, -, -, hlost⟩ := hx
  exact ⟨hsweep, le_min (by decide) (Nat.le_add_left ..), Nat.min_le_left .., hlost⟩

theorem lawful_coalesce {q : ReportQueue} (h : q.lawful) (r : Report) : (q.coalesce r).lawful := by
  refine lawful_mapRecords h fun x hx => ?_
  split
  · exact ⟨rfl, rfl, queueable_coalesced r hx⟩
  · exact ⟨rfl, rfl, hx⟩

theorem evict_pooled {q : ReportQueue} {c : ReportClass} (h : q.lists.get c ≠ []) : (q.evict c).pooled + 1 = q.pooled := by
  have hset := pooled_setList q c (q.lists.get c).tail
  have hpos := List.length_pos_iff.mpr h
  rw [List.length_tail] at hset
  change (q.setList c (q.lists.get c).tail).pooled + 1 = q.pooled
  omega

theorem join_pooled (q : ReportQueue) (r : Report) (front : Bool) : (q.join r front).pooled = q.pooled + 1 := by
  have hset := pooled_setList q r.cls
    (if front then { r with urgent := false } :: q.lists.get r.cls else q.lists.get r.cls ++ [{ r with urgent := false }])
  have hlength : (if front then ({ r with urgent := false } : Report) :: q.lists.get r.cls
      else q.lists.get r.cls ++ [{ r with urgent := false }]).length = (q.lists.get r.cls).length + 1 := by
    cases front <;> simp
  rw [hlength] at hset
  simp only [ReportQueue.join]
  omega

/-- Adding a report keeps the law and the capacities (R64 to R68). -/
theorem add_sound {q : ReportQueue} (h : q.lawful ∧ q.bounded) (classes : PerClass ClassSetting) {x : Claim}
    (hx : x.report.queueable) : (q.add classes x).lawful ∧ (q.add classes x).bounded := by
  obtain ⟨hlawful, hbounded⟩ := h
  have ⟨hpooled, hplaces⟩ := hbounded
  obtain ⟨-, hadd⟩ | ⟨-, ⟨-, hroom, hadd⟩ | ⟨hroom, front, hadd⟩ | ⟨-, ⟨w, front, hworst, -, hadd⟩ | hadd⟩⟩ :=
    add_cases q classes x <;> rw [hadd]
  · exact ⟨lawful_coalesce hlawful _, bounded_mapRecords hbounded _⟩
  · refine ⟨⟨hlawful.1, ?_, hlawful.2.2⟩, hpooled, by simpa using hroom⟩
    simp only [List.forall_mem_append, List.forall_mem_singleton]
    exact ⟨hlawful.2.1, trivial, hx⟩
  · exact ⟨lawful_join hlawful hx front, by rw [join_pooled]; exact hroom, hplaces⟩
  · have hsize := evict_pooled ((worst_iff ..).mp hworst).1
    refine ⟨lawful_join (lawful_evict hlawful w) hx front, ?_, hplaces⟩
    rw [join_pooled, hsize]
    exact hpooled
  · exact ⟨lawful_countLost hlawful _, hbounded⟩

/-- Reports as their raisers hand them over keep the law (R58, R63). -/
theorem addAll_sound {q : ReportQueue} (h : q.lawful ∧ q.bounded) (classes : PerClass ClassSetting) {cs : List Claim}
    (hcs : ∀ x ∈ cs, x.isNew) : (q.addAll classes cs).lawful ∧ (q.addAll classes cs).bounded := by
  refine addAll_induction (P := fun q => q.lawful ∧ q.bounded) h fun q x hx hq => add_sound hq classes ?_
  obtain ⟨hsweep, hrepeat, hlost⟩ := hcs x hx
  exact ⟨hsweep, by omega, by rw [hrepeat]; decide, by omega⟩

/-! ## Taking -/

theorem takeUrgent_sound {q : ReportQueue} (h : q.lawful ∧ q.bounded) (c : ReportClass) :
    (q.takeUrgent c).lawful ∧ (q.takeUrgent c).bounded := by
  obtain ⟨⟨hlists, hmarks, hlost⟩, hpooled, hplaces⟩ := h
  refine ⟨lawful_lost (q := { q with urgent := q.urgent.tail }) ⟨hlists, fun r hr => hmarks r (List.mem_of_mem_tail hr), hlost⟩ c
    (Nat.zero_le _), hpooled, ?_⟩
  simp only [ReportQueue.takeUrgent, ReportQueue.clearLost, List.length_tail]
  omega

/-- A class list cut down. -/
theorem setList_sound {q : ReportQueue} (h : q.lawful ∧ q.bounded) (c : ReportClass) {l : List Report}
    (hl : l.Sublist (q.lists.get c)) : (q.setList c l).lawful ∧ (q.setList c l).bounded := by
  obtain ⟨hlawful, hpooled, hplaces⟩ := h
  refine ⟨lawful_setList hlawful c fun r hr => hlawful.1 c r (hl.subset hr), ?_, hplaces⟩
  have hset := pooled_setList q c l
  have := hl.length_le
  omega

theorem takeClass_sound {q : ReportQueue} (h : q.lawful ∧ q.bounded) (c : ReportClass) :
    (q.takeClass c).lawful ∧ (q.takeClass c).bounded := by
  obtain ⟨hlawful, hbounded⟩ := setList_sound h c (List.tail_sublist _)
  exact ⟨lawful_lost hlawful c (Nat.zero_le _), hbounded⟩

theorem atReset_sound : ReportQueue.atReset.lawful ∧ ReportQueue.atReset.bounded := by
  refine ⟨⟨fun c r hr => ?_, by simp [ReportQueue.atReset], fun c => ?_⟩, by decide⟩
  · simp [ReportQueue.atReset] at hr
  · simp [ReportQueue.atReset]

/-! ## The return after an owner change (R73 to R75) -/

theorem queueable_merged {r x : Report} (hr : r.queueable) (hx : x.queueable) : (r.merged x).queueable := by
  obtain ⟨-, -, -, hrlost⟩ := hr
  obtain ⟨hsweep, hone, -, hlost⟩ := hx
  refine ⟨hsweep, le_min (by decide) (hone.trans (Nat.le_add_right ..)), Nat.min_le_left .., ?_⟩
  simp only [Report.merged]
  split
  · exact hrlost
  · exact hlost

/-- The merging keeps the law of the queue, and the survivors may stand in it (R73). -/
theorem mergeReturned_sound {rs : List Report} {q : ReportQueue} (hrs : ∀ r ∈ rs, r.queueable) (h : q.lawful)
    (hplaces : q.urgent.length ≤ Config.urgentCapacity) :
    ((mergeReturned rs q []).1.lawful ∧ (mergeReturned rs q []).1.urgent.length ≤ Config.urgentCapacity) ∧
      ∀ r ∈ (mergeReturned rs q []).2, r.queueable := by
  refine mergeReturned_induction (P := fun q kept => (q.lawful ∧ q.urgent.length ≤ Config.urgentCapacity) ∧ ∀ r ∈ kept, r.queueable)
    ⟨⟨h, hplaces⟩, by simp⟩ ?_ ?_ ?_
  · rintro q kept r hr ⟨⟨hq, hlength⟩, hkept⟩ -
    refine ⟨⟨lawful_mapRecords hq fun x hx => ?_, by simpa [ReportQueue.mapRecords] using hlength⟩, hkept⟩
    split
    · exact ⟨rfl, rfl, queueable_merged (hrs r hr) hx⟩
    · exact ⟨rfl, rfl, hx⟩
  · rintro q kept r hr ⟨hq, hkept⟩ - -
    refine ⟨hq, List.forall_mem_map.mpr fun x hx => ?_⟩
    split
    · exact queueable_merged (hrs r hr) (hkept x hx)
    · exact hkept x hx
  · rintro q kept r hr ⟨hq, hkept⟩ - -
    exact ⟨hq, List.forall_mem_cons.mpr ⟨hrs r hr, hkept⟩⟩

/-- The placed survivors stand where class and mark put them, in the places that are free (R74). -/
theorem placeReturned_lawful {q : ReportQueue} (h : q.lawful) (hplaces : q.urgent.length ≤ Config.urgentCapacity)
    {kept : List Report} (hkept : ∀ r ∈ kept, r.queueable) :
    (q.placeReturned kept).lawful ∧ (q.placeReturned kept).urgent.length ≤ Config.urgentCapacity := by
  obtain ⟨hlists, hmarks, hlost⟩ := h
  obtain ⟨hlength, hurgent, hordinary⟩ := divideReturned_urgent (Config.urgentCapacity - q.urgent.length) kept
  refine ⟨⟨fun c r hr => ?_, fun r hr => ?_, hlost⟩, ?_⟩
  · simp only [ReportQueue.placeReturned, PerClass.get_ofFn, List.mem_append, List.mem_filter, decide_eq_true_eq] at hr
    obtain ⟨hr, hcls⟩ | hr := hr
    · obtain ⟨hmark, x, hx, rfl⟩ := hordinary r hr
      exact ⟨⟨hcls, hmark⟩, hkept x hx⟩
    · exact hlists c r hr
  · obtain hr | hr := List.mem_append.mp hr
    · obtain ⟨hmem, hmark⟩ := hurgent r hr
      exact ⟨hmark, hkept r hmem⟩
    · exact hmarks r hr
  · simp only [ReportQueue.placeReturned, List.length_append]
    omega

/-- While records are held there is a worst class to evict from (R68). -/
theorem worst_of_pooled_pos {q : ReportQueue} (classes : PerClass ClassSetting) (h : 0 < q.pooled) :
    ∃ w, q.worst classes = some w := by
  by_contra hnone
  have hempty : ∀ c, q.lists.get c = [] := worst_none (classes := classes) (by simpa [Option.eq_none_iff_forall_ne_some] using hnone)
  simp [pooled_eq, hempty] at h

/-- Each eviction takes one record (R75). -/
theorem evictTimes_pooled (classes : PerClass ClassSetting) (n : Nat) {q : ReportQueue} (h : n ≤ q.pooled) :
    (q.evictTimes classes n).pooled = q.pooled - n := by
  induction n generalizing q with
  | zero => rfl
  | succ n ih =>
    obtain ⟨w, hw⟩ := worst_of_pooled_pos classes (q := q) (by omega)
    have hsize := evict_pooled ((worst_iff ..).mp hw).1
    simp only [ReportQueue.evictTimes, hw]
    rw [ih (by omega)]
    omega

theorem takeBack_sound {q : ReportQueue} (h : q.lawful ∧ q.bounded) (classes : PerClass ClassSetting) {l : List Outstanding}
    (hl : ∀ o ∈ l, o.report.counted) : (q.takeBack classes l).lawful ∧ (q.takeBack classes l).bounded := by
  obtain ⟨hlawful, -, hplaces⟩ := h
  have hreturned : ∀ r ∈ ((l.map Outstanding.report).filter fun r => !r.isSweep).reverse, r.queueable := by
    intro r hr
    obtain ⟨hr, hsweep⟩ := List.mem_filter.mp (List.mem_reverse.mp hr)
    obtain ⟨o, ho, rfl⟩ := List.mem_map.mp hr
    exact ⟨by simpa using hsweep, hl o ho⟩
  obtain ⟨⟨hmerged, hlength⟩, hkept⟩ := mergeReturned_sound hreturned hlawful hplaces
  have hplaced := placeReturned_lawful hmerged hlength hkept
  simp only [ReportQueue.takeBack]
  generalize (mergeReturned _ q []).1.placeReturned (mergeReturned _ q []).2 = placed at hplaced ⊢
  obtain ⟨hlaw, hfinal⟩ := evictTimes_induction (classes := classes) (n := placed.pooled - Config.poolCapacity)
    (P := fun q => q.lawful ∧ q.urgent.length ≤ Config.urgentCapacity) hplaced
    fun q c hq => ⟨lawful_evict hq.1 c, hq.2⟩
  refine ⟨hlaw, ?_, hfinal⟩
  rw [evictTimes_pooled _ _ (Nat.sub_le ..)]
  omega

/-! ## The records sent -/

/-- The report of an urgent choice stands at the front of the urgent list (R82). -/
theorem choice_urgent {s : State} {r : Report} (h : s.choice = some (.urgent r)) : ∃ rest, s.queue.urgent = r :: rest := by
  simp only [State.choice] at h
  split at h
  · cases h
  · split at h
    · split at h
      · rename_i rest hlist; cases h; exact ⟨rest, hlist⟩
      · simp only [State.contest] at h
        split at h
        · split at h
          · cases h
          · simp at h
        · split at h <;> cases h
    · cases h

/-- The report of a class's choice stands at the front of its class list (R83). -/
theorem choice_fromClass {s : State} {d : ReportClass} {r : Report} (h : s.choice = some (.fromClass d r)) :
    (s.queue.lists.get d).head? = some r := by
  simp only [State.choice] at h
  split at h
  · cases h
  · split at h
    · split at h
      · cases h
      · simp only [State.contest] at h
        split at h
        · split at h
          · cases h
          · simp only [Option.map_eq_some_iff, Choice.fromClass.injEq] at h
            obtain ⟨x, hx, rfl, rfl⟩ := h
            exact hx
        · split at h <;> cases h
    · cases h

theorem counted_emitted {r : Report} (h : r.counted) (number : Word) (lost : Nat) : (emitted r number lost).report.counted :=
  ⟨h.1, h.2.1, Nat.min_le_left ..⟩

/-- A report of the Sweep Generator has the counts of a new one (R107, R108). -/
theorem counted_sweepWin (s : State) : s.sweepWin.1.counted := by
  have hone : 1 ≤ Config.countMax := by decide
  simp only [State.sweepWin]
  split
  · exact ⟨le_rfl, hone, Nat.zero_le _⟩
  · split <;> exact ⟨le_rfl, hone, Nat.zero_le _⟩

theorem forall_mem_emitted {l : List Outstanding} (hl : ∀ o ∈ l, o.report.counted) {r : Report} (hr : r.counted) (number : Word)
    (lost : Nat) : ∀ o ∈ l ++ [emitted r number lost], o.report.counted :=
  List.forall_mem_append.mpr ⟨hl, List.forall_mem_singleton.mpr (counted_emitted hr number lost)⟩

theorem queueSound_emit {s : State} (hs : s.queueSound) (owner : Node) {ch : Choice} (h : s.choice = some ch) :
    (s.emit owner ch).queueSound := by
  have ⟨hqueue, hout⟩ := (queueSound_iff s).mp hs
  refine (queueSound_iff _).mpr ?_
  cases ch with
  | retransmit o =>
    refine ⟨hqueue, List.forall_mem_map.mpr fun x hx => ?_⟩
    have := hout x hx
    split <;> exact this
  | urgent r =>
    obtain ⟨rest, hlist⟩ := choice_urgent h
    have ⟨_, _, hcounted⟩ := hqueue.1.2.1 r (by simp [hlist])
    exact ⟨takeUrgent_sound hqueue _, forall_mem_emitted hout hcounted _ _⟩
  | fromClass d r =>
    have ⟨_, _, hcounted⟩ := hqueue.1.1 d r (List.mem_of_mem_head? (choice_fromClass h))
    obtain ⟨credits, hpay⟩ := pay_eq s.emitter d
    simp only [State.emit, State.emitFirst, State.send, hpay]
    exact ⟨takeClass_sound hqueue d, forall_mem_emitted hout hcounted _ _⟩
  | sweep => exact ⟨hqueue, forall_mem_emitted hout (counted_sweepWin s) _ _⟩

/-! ## Every effect -/

theorem changeOwner_queue (s : State) (o : Option Node) :
    (s.changeOwner o).queue = s.queue.takeBack s.emitter.classes s.emitter.outstanding := by
  cases hlink : s.emitter.link <;> simp [State.changeOwner, State.emitterOwnerChange, hlink]

theorem Effect.keeps_queueSound {c : Instr} {s t : State} (h : Effect c s t) (hs : s.queueSound) : t.queueSound := by
  have ⟨hqueue, hout⟩ := (queueSound_iff s).mp hs
  have hnone : ∀ o ∈ ([] : List Outstanding), o.report.counted := by simp
  refine (queueSound_iff t).mpr ?_
  cases h with
  | enterScrub | warm => exact ⟨atReset_sound, hnone⟩
  | completeCopy => simp only [State.completeCopy, State.finalResponse_emitter, State.finalResponse_queue]; exact ⟨hqueue, hout⟩
  | refuseCommit => simp only [State.refuseCommit, State.finalResponse_emitter, State.finalResponse_queue]; exact ⟨hqueue, hout⟩
  | completeCommit => simp only [State.completeCommit, State.finalResponse_emitter, State.finalResponse_queue]; exact ⟨hqueue, hout⟩
  | raises cs hnew => exact ⟨addAll_sound hqueue _ hnew, hout⟩
  | takeMark => rw [State.takeMark_emitter, State.takeMark_queue]; exact ⟨hqueue, hout⟩
  | endDeaf =>
    rw [State.endDeaf_queue]
    cases hlink : s.emitter.link
    · rw [endDeaf_normal hlink]; exact ⟨hqueue, hout⟩
    · rw [endDeaf_deaf hlink]; exact ⟨hqueue, List.forall_mem_map.mpr hout⟩
  | changeOwner o =>
    rw [changeOwner_queue, changeOwner_outstanding]
    exact ⟨takeBack_sound hqueue _ hout, hnone⟩
  | discard d => exact ⟨setList_sound hqueue d (List.nil_sublist _), hout⟩
  | acked n => exact ⟨hqueue, fun o ho => hout o (List.mem_of_mem_drop ho)⟩
  | flagOldest o rest hlist =>
    rw [hlist] at hout
    simp only [State.withEmitter_emitter, Emitter.flagOldest, hlist]
    exact ⟨hqueue, List.forall_mem_cons.mpr (List.forall_mem_cons.mp hout)⟩
  | copyEnds n =>
    refine ⟨hqueue, List.forall_mem_map.mpr fun x hx => ?_⟩
    have := hout x hx
    split <;> exact this
  | emits owner ch hoffer =>
    obtain ⟨-, -, -, hchoice⟩ := reportOffer_some hoffer
    exact (queueSound_iff _).mp (queueSound_emit hs owner hchoice)
  | _ => exact ⟨hqueue, hout⟩

/-- Settles O55, effect by effect; the law reads no timer. -/
theorem stepKeepsQueueSound : Obligations.StepKeepsQueueSound :=
  step_keeps (fun _ _ hs => hs) (fun _ hs => hs) fun _ _ _ h hs => h.keeps_queueSound hs

end Sys2Proof.Machine
end

section
/-!
PROOFS. No two unsent records of one key and kind (R64), through adding, taking and the return after an owner change.
-/

namespace Sys2Proof.Machine

set_option Elab.async false

/-! ## Key and kind -/

/-- What tells the unsent records apart (R64). -/
def Report.ident (r : Report) : ReportKey × Kind := (r.key, r.kind)

theorem matches_iff_ident (r x : Report) : r.matches x = true ↔ x.ident = r.ident := by
  rw [matches_iff, Report.ident, Report.ident, Prod.mk.injEq]

theorem distinct_iff (q : ReportQueue) : q.distinct ↔ (q.unsent.map Report.ident).Nodup := by
  rw [ReportQueue.distinct, List.Nodup, List.pairwise_map]
  refine List.Pairwise.iff fun {r x} => ?_
  rw [Bool.eq_false_iff, ne_eq, matches_iff_ident, eq_comm]

theorem holds_false_iff (q : ReportQueue) (r : Report) : q.holds r = false ↔ r.ident ∉ q.unsent.map Report.ident := by
  rw [Bool.eq_false_iff, ne_eq, ReportQueue.holds, List.any_eq_true, List.mem_map]
  simp only [matches_iff_ident]

/-! ## The unsent records after an update -/

theorem unsent_eq (q : ReportQueue) : q.unsent = q.urgent ++ allClasses.flatMap q.lists.get := by
  rw [ReportQueue.unsent, PerClass.toList_eq, List.flatMap]

theorem flatMap_sublist {α β : Type} (l : List α) {f g : α → List β} (h : ∀ a, (f a).Sublist (g a)) :
    (l.flatMap f).Sublist (l.flatMap g) := by
  induction l with
  | nil => exact List.Sublist.refl _
  | cons a l ih => simpa using (h a).append ih

/-- Cutting lists down cuts the unsent records down. -/
theorem unsent_sublist {q q' : ReportQueue} (hurgent : q'.urgent.Sublist q.urgent)
    (hlists : ∀ c, (q'.lists.get c).Sublist (q.lists.get c)) : q'.unsent.Sublist q.unsent := by
  rw [unsent_eq, unsent_eq]
  exact hurgent.append (flatMap_sublist _ hlists)

theorem distinct_of_sublist {q q' : ReportQueue} (h : q.distinct) (hurgent : q'.urgent.Sublist q.urgent)
    (hlists : ∀ c, (q'.lists.get c).Sublist (q.lists.get c)) : q'.distinct :=
  List.Pairwise.sublist (unsent_sublist hurgent hlists) h

theorem setList_get_sublist (q : ReportQueue) (c : ReportClass) {l : List Report} (hl : l.Sublist (q.lists.get c)) (d : ReportClass) :
    ((q.setList c l).lists.get d).Sublist (q.lists.get d) := by
  simp only [ReportQueue.setList, PerClass.get_set]
  split
  · rename_i hd; rw [hd]; exact hl
  · exact List.Sublist.refl _

theorem distinct_setList {q : ReportQueue} (h : q.distinct) (c : ReportClass) {l : List Report} (hl : l.Sublist (q.lists.get c)) :
    (q.setList c l).distinct := distinct_of_sublist h (List.Sublist.refl _) (setList_get_sublist q c hl)

theorem distinct_evict {q : ReportQueue} (h : q.distinct) (c : ReportClass) : (q.evict c).distinct :=
  distinct_setList h c (List.tail_sublist _)

/-- The unsent records once one class list is replaced. -/
theorem unsent_setList (q : ReportQueue) (c : ReportClass) (l : List Report) :
    ((q.setList c l).unsent ++ q.lists.get c).Perm (q.unsent ++ l) := by
  rw [List.perm_iff_count]
  intro r
  obtain ⟨⟨l0, l1, l2, l3, l4, l5, l6, l7⟩, u, x⟩ := q
  fin_cases c <;>
    simp [ReportQueue.unsent, ReportQueue.setList, PerClass.set, PerClass.ofFn, PerClass.toList, PerClass.get] <;> omega

theorem unsent_mapRecords (q : ReportQueue) (f : Report → Report) : (q.mapRecords f).unsent = q.unsent.map f := by
  have hget : (PerClass.ofFn fun c => (q.lists.get c).map f).get = fun c => (q.lists.get c).map f := funext fun c => PerClass.get_ofFn ..
  simp only [unsent_eq, ReportQueue.mapRecords, List.map_append, List.map_flatMap, hget]

/-- A rewriting that keeps key and kind keeps the records apart. -/
theorem map_ident {f : Report → Report} (hf : ∀ r, (f r).ident = r.ident) (l : List Report) :
    (l.map f).map Report.ident = l.map Report.ident := by
  rw [List.map_map]
  exact List.map_congr_left fun r _ => hf r

/-! ## Adding -/

/-- The record that joins is a new one among the unsent. -/
theorem unsent_join (q : ReportQueue) (r : Report) (front : Bool) :
    (q.join r front).unsent.Perm ({ r with urgent := false } :: q.unsent) := by
  have hset := unsent_setList q r.cls
    (if front then { r with urgent := false } :: q.lists.get r.cls else q.lists.get r.cls ++ [{ r with urgent := false }])
  refine (List.perm_append_right_iff (q.lists.get r.cls)).mp (hset.trans ?_)
  rw [List.perm_iff_count]
  intro x
  cases front <;> simp only [if_true, if_false, Bool.false_eq_true, List.count_append, List.count_cons, List.count_nil] <;> omega

theorem distinct_cons {q q' : ReportQueue} (h : q.distinct) {r x : Report} (hr : q.holds r = false) (hx : x.ident = r.ident)
    (hperm : q'.unsent.Perm (x :: q.unsent)) : q'.distinct := by
  rw [distinct_iff, (hperm.map Report.ident).nodup_iff, List.map_cons, List.nodup_cons, hx]
  exact ⟨(holds_false_iff q r).mp hr, (distinct_iff q).mp h⟩

theorem holds_of_sublist {q q' : ReportQueue} {r : Report} (h : q.holds r = false) (hsub : q'.unsent.Sublist q.unsent) :
    q'.holds r = false := by
  rw [holds_false_iff] at *
  exact fun hr => h ((hsub.map _).subset hr)

theorem distinct_add {q : ReportQueue} (h : q.distinct) (classes : PerClass ClassSetting) (x : Claim) : (q.add classes x).distinct := by
  obtain ⟨-, hadd⟩ | ⟨hnew, ⟨-, -, hadd⟩ | ⟨-, front, hadd⟩ | ⟨-, ⟨w, front, -, -, hadd⟩ | hadd⟩⟩ :=
    add_cases q classes x <;> rw [hadd]
  · rw [distinct_iff, ReportQueue.coalesce, unsent_mapRecords, map_ident]
    · exact (distinct_iff q).mp h
    · intro r
      split <;> rfl
  · refine distinct_cons h hnew (x := { x.report with urgent := true }) rfl ?_
    rw [ReportQueue.unsent, ReportQueue.unsent, List.append_assoc]
    exact List.perm_middle
  · exact distinct_cons h hnew (x := { x.report with urgent := false }) rfl (unsent_join ..)
  · have hsub : (q.evict w).unsent.Sublist q.unsent :=
      unsent_sublist (List.Sublist.refl _) (setList_get_sublist q w (List.tail_sublist _))
    exact distinct_cons (distinct_evict h w) (holds_of_sublist hnew hsub) (x := { x.report with urgent := false }) rfl (unsent_join ..)
  · exact h

/-! ## The return after an owner change (R73 to R75) -/

/-- The unsent records and the survivors together are apart from one another. -/
abbrev apart (q : ReportQueue) (kept : List Report) : Prop := ((q.unsent ++ kept).map Report.ident).Nodup

theorem merged_ident (r x : Report) : (if r.matches x then r.merged x else x).ident = x.ident := by
  split <;> rfl

theorem apart_mergeReturned {rs : List Report} {q : ReportQueue} (h : q.distinct) :
    apart (mergeReturned rs q []).1 (mergeReturned rs q []).2 := by
  refine mergeReturned_induction (P := apart) (by simpa [apart] using (distinct_iff q).mp h) ?_ ?_ ?_
  · intro q kept r _ hq _
    rw [apart, unsent_mapRecords, List.map_append, map_ident (merged_ident r), ← List.map_append]
    exact hq
  · intro q kept r _ hq _ _
    rw [apart, List.map_append, map_ident (merged_ident r), ← List.map_append]
    exact hq
  · intro q kept r _ hq hnew hkept
    have hmiddle : ((q.unsent ++ r :: kept).map Report.ident).Perm ((r :: (q.unsent ++ kept)).map Report.ident) :=
      List.perm_middle.map _
    rw [apart, hmiddle.nodup_iff, List.map_cons, List.nodup_cons, List.map_append, List.mem_append, not_or]
    refine ⟨⟨(holds_false_iff q r).mp hnew, fun hr => ?_⟩, by rw [← List.map_append]; exact hq⟩
    obtain ⟨x, hx, hident⟩ := List.mem_map.mp hr
    rw [List.any_eq_false] at hkept
    exact hkept x hx ((matches_iff_ident r x).mpr hident)

/-- The two sides of the division hold each survivor once, up to its mark (R74). -/
theorem divideReturned_ident (free : Nat) (rs : List Report) :
    (((divideReturned free rs).1 ++ (divideReturned free rs).2).map Report.ident).Perm (rs.map Report.ident) := by
  induction rs generalizing free with
  | nil => exact List.Perm.refl _
  | cons r rs ih =>
    have hmiddle : ∀ (x : Report) (l m : List Report), ((l ++ x :: m).map Report.ident).Perm (x.ident :: (l ++ m).map Report.ident) :=
      fun x l m => List.perm_middle.map _
    simp only [divideReturned]
    split
    · cases free with
      | zero => exact (hmiddle ..).trans ((ih 0).cons _)
      | succ n => exact (ih n).cons _
    · exact (hmiddle ..).trans ((ih free).cons _)

/-- The classes' shares of a list are the list. -/
theorem flatMap_filter_cls (l : List Report) : (allClasses.flatMap fun c => l.filter fun r => decide (r.cls = c)).Perm l := by
  rw [List.perm_iff_count]
  intro r
  have hcount : ∀ c : ReportClass, (l.filter fun x => decide (x.cls = c)).count r = if r.cls = c then l.count r else 0 := by
    intro c
    split
    · rename_i hc; exact List.count_filter (by simpa using hc)
    · rename_i hc; exact List.count_eq_zero.mpr fun hr => hc (by simpa using (List.mem_filter.mp hr).2)
  rw [List.count_flatMap]
  simp only [allClasses, Function.comp_def, hcount]
  generalize r.cls = d
  fin_cases d <;> simp

theorem unsent_placeReturned (q : ReportQueue) (kept : List Report) :
    ((q.placeReturned kept).unsent.map Report.ident).Perm ((q.unsent ++ kept).map Report.ident) := by
  have hdivided := divideReturned_ident (Config.urgentCapacity - q.urgent.length) kept
  generalize hd : divideReturned (Config.urgentCapacity - q.urgent.length) kept = d at hdivided
  have hlists : ((q.placeReturned kept).unsent).Perm ((d.1 ++ q.urgent) ++ (d.2 ++ allClasses.flatMap q.lists.get)) := by
    simp only [unsent_eq, ReportQueue.placeReturned, hd]
    exact ((List.flatMap_append_perm ..).symm.trans ((flatMap_filter_cls d.2).append_right _)).append_left _
  have hshuffle : ((d.1 ++ q.urgent) ++ (d.2 ++ allClasses.flatMap q.lists.get)).Perm (q.unsent ++ (d.1 ++ d.2)) := by
    rw [unsent_eq, List.perm_iff_count]
    intro r
    simp only [List.count_append]
    omega
  have hall := (hlists.trans hshuffle).map Report.ident
  rw [List.map_append] at hall ⊢
  exact hall.trans (hdivided.append_left _)

theorem distinct_takeBack {q : ReportQueue} (h : q.distinct) (classes : PerClass ClassSetting) (l : List Outstanding) :
    (q.takeBack classes l).distinct := by
  simp only [ReportQueue.takeBack]
  refine evictTimes_induction (P := ReportQueue.distinct) ?_ fun q c hq => distinct_evict hq c
  rw [distinct_iff, (unsent_placeReturned ..).nodup_iff]
  exact apart_mergeReturned h

/-! ## Every effect -/

theorem distinct_atReset : ReportQueue.atReset.distinct := by decide

theorem distinct_emit {s : State} (hs : s.queue.distinct) (owner : Node) (ch : Choice) : (s.emit owner ch).queue.distinct := by
  cases ch with
  | urgent r => exact distinct_of_sublist hs (List.tail_sublist _) fun _ => List.Sublist.refl _
  | fromClass d r => exact distinct_setList hs d (List.tail_sublist _)
  | retransmit | sweep => exact hs

theorem Effect.keeps_distinct {c : Instr} {s t : State} (h : Effect c s t) (hs : s.queue.distinct) : t.queue.distinct := by
  cases h with
  | enterScrub | warm => exact distinct_atReset
  | completeCopy => rw [State.completeCopy, State.finalResponse_queue]; exact hs
  | refuseCommit => rw [State.refuseCommit, State.finalResponse_queue]; exact hs
  | completeCommit => rw [State.completeCommit, State.finalResponse_queue]; exact hs
  | raises cs => exact addAll_induction hs fun q x _ hq => distinct_add hq _ x
  | takeMark => rwa [State.takeMark_queue]
  | endDeaf => rwa [State.endDeaf_queue]
  | changeOwner => rw [changeOwner_queue]; exact distinct_takeBack hs ..
  | discard d => exact distinct_setList hs d (List.nil_sublist _)
  | emits owner ch => exact distinct_emit hs owner ch
  | _ => exact hs

/-- Settles O56, effect by effect; time touches no record. -/
theorem stepKeepsRecordsDistinct : Obligations.StepKeepsRecordsDistinct :=
  step_keeps (P := fun s => s.queue.distinct) (fun _ _ hs => hs) (fun _ hs => hs) fun _ _ _ h hs => h.keeps_distinct hs

end Sys2Proof.Machine
end

section
/-!
PROOFS. The step, the resets, the start, HOLD and RELEASE (R171 to R183): the whole next state.
-/

namespace Sys2Proof.Machine

set_option Elab.async false

/-! ## The step -/

/-- Settles O1: both sides are the same term. -/
theorem stepRunsTheFrontCommand : Obligations.StepRunsTheFrontCommand := fun _ _ _ => rfl

theorem step_idle {s : State} (h : s.pending = []) : step s = .next s.idle := by
  simp only [step, h]

theorem idle_of_due {s : State} (h : s.due ≠ []) : s.idle = s.withPending s.due := by
  obtain ⟨c, cs, hdue⟩ := List.exists_cons_of_ne_nil h
  rw [State.idle, hdue]

theorem idle_of_not_due {s : State} (h : s.due = []) : s.idle = s.tick := by
  rw [State.idle, h]

theorem hailOffer_isSome_iff (s : State) :
    s.hailOffer.isSome = true ↔
      s.emitter.link = .deaf ∧ s.emitter.hailPending = true ∧ s.mgmt.owner ≠ none ∧ s.emitter.outstanding ≠ [] := by
  simp only [State.hailOffer]
  split
  · next hp =>
    cases s.mgmt.owner <;> cases s.emitter.outstanding <;> simp [hp.1, hp.2]
  · next hp =>
    simp only [Option.isSome_none, Bool.false_eq_true, false_iff]
    exact fun ⟨hlink, hpending, _⟩ => hp ⟨hpending, hlink⟩

theorem upOrHail_isSome_iff (s : State) : s.upOrHail.isSome = true ↔ s.ports.up ≠ [] ∨ s.hailOffer.isSome = true := by
  cases h : s.ports.up <;> simp [State.upOrHail, h]

/-- A frame waits for the transmitter exactly if one of the four sources holds one (R146). -/
theorem nextGrant_isSome_iff (s : State) :
    s.nextGrant.isSome = true ↔
      s.ports.responses ≠ [] ∨ s.reportOffer.isSome = true ∨ s.ports.up ≠ [] ∨ s.hailOffer.isSome = true := by
  cases hresponses : s.ports.responses with
  | cons r rest => simp [State.nextGrant, hresponses]
  | nil =>
    cases hoffer : s.reportOffer with
    | none => simp [State.nextGrant, hresponses, hoffer, upOrHail_isSome_iff]
    | some offer =>
      obtain ⟨owner, ch⟩ := offer
      simp only [State.nextGrant, hresponses, hoffer]
      split
      · next hup => simp [upOrHail_isSome_iff, hup.2.1]
      · simp

/-- Settles O2, the due list part by part. -/
theorem stepWithNoCommand : Obligations.StepWithNoCommand := by
  intro s hpending
  refine ⟨fun hdue => ?_, fun hdue => ?_, rfl, fun _ _ => rfl, fun hheld => ?_, fun hreleased => ?_⟩
  · rw [step_idle hpending, idle_of_due hdue]; rfl
  · rw [step_idle hpending, idle_of_not_due hdue]; rfl
  · rw [State.due, if_pos hheld]
  · intro out
    have hout : ∀ t, out t = t.isDue := fun t => by
      cases t with
      | stopped => rfl
      | running n d => cases n <;> rfl
    have hgrant : s.dueGrant =
        if s.ports.tSending = none ∧
            (s.ports.responses ≠ [] ∨ s.reportOffer.isSome = true ∨ s.ports.up ≠ [] ∨
              (s.emitter.link = .deaf ∧ s.emitter.hailPending = true ∧ s.mgmt.owner ≠ none ∧ s.emitter.outstanding ≠ [])) then
          [.transmitGrant]
        else [] := by
      rw [State.dueGrant]
      simp only [nextGrant_isSome_iff, hailOffer_isSome_iff]
    have hsilence :
        (s.tables.active.slots.filter fun x => s.isRunning && x.timer.isDue && decide (x.state ≠ .silent)) =
          s.tables.active.slots.filter fun x => decide (s.start.part = .running ∧ x.state ≠ .silent) && out x.timer := by
      refine List.filter_congr fun x _ => ?_
      rw [hout, State.isRunning, Bool.decide_and, Bool.and_right_comm]
    have hack : (s.emitter.ackTimer.isDue && !s.emitter.outstanding.isEmpty) = true ↔
        s.emitter.outstanding ≠ [] ∧ out s.emitter.ackTimer = true := by
      rw [hout, Bool.and_eq_true, and_comm]; simp
    have hhail : s.hailExpires = true ↔ s.emitter.link = .deaf ∧ out s.emitter.hailTimer = true := by
      rw [hout, State.hailExpires, Bool.and_eq_true, decide_eq_true_eq]
    have hrefill : allClasses.filter s.refillExpires =
        ([0, 1, 2, 3, 4, 5, 6, 7] : List ReportClass).filter fun c =>
          decide ((s.start.part = .held ∨ s.start.part = .running) ∧ (s.emitter.classes.get c).period ≠ 0) &&
            out (s.emitter.refill.get c) := by
      refine List.filter_congr fun c _ => ?_
      rw [hout, Bool.eq_iff_iff, State.refillExpires]
      simp only [Bool.and_eq_true, started_iff, decide_eq_true_eq]
      tauto
    simp only [State.due, hreleased, Bool.false_eq_true, if_false, State.dueExpiries, hgrant, hsilence, hack, hhail, hrefill,
      List.append_assoc]
    rfl

/-! ## RESET -/

/-- While RESET is held only the two commands of a pin reset do anything (R174). -/
theorem exec_held {c : Instr} {s : State} (h : s.start.resetHeld = true) (hreset : c ≠ .pinReset)
    (hend : ∀ pins, c ≠ .endOfPinReset pins) : exec c s = .next s := by
  cases hq : commandRequest c with
  | some q => rw [exec_request hq, request_held h]
  | none =>
    cases c with
    | pinReset => exact absurd rfl hreset
    | endOfPinReset pins => exact absurd rfl (hend pins)
    | endOfScrub | imageHeaderRead | imageRecordRead | imageCrcRead | fPortFrameReceived | tPortFrameReceived | copyActiveCompletion
    | commitRefusal | commitCompletion | silenceExpiry | ackWaitExpiry | hailExpiry | refillExpiry | transmitGrant | tPortFrameEnd
    | fPortTransmitStart | fPortTransmitEnd =>
      simp only [exec, execEndOfScrub, execImageHeaderRead, execImageRecordRead, execImageCrcRead, execFPortFrameReceived,
        execTPortFrameReceived, execCopyActiveCompletion, execCommitRefusal, execCommitCompletion, execSilenceExpiry,
        execAckWaitExpiry, execHailExpiry, execRefillExpiry, execTransmitGrant, execTPortFrameEnd, execFPortTransmitStart,
        execFPortTransmitEnd, whenReleased_held h]
    | _ => simp only [commandRequest, reduceCtorEq] at hq

/-- Settles O3. -/
theorem pinResetHolds : Obligations.PinResetHolds :=
  ⟨fun _ => rfl, fun _ _ h hreset hend => exec_held h hreset hend⟩

/-! ## Entering SCRUB -/

theorem addressDefaults_eq (pins : Pins) : addressDefaults pins = decide (pins.node = 0 ∨ pins.node = 127) :=
  (Bool.decide_or ..).symm

theorem atReset_enterScrub (c : StartController) (pins : Pins) :
    c.enterScrub pins =
      { StartController.atReset with
        ownNode := if pins.node = 0 ∨ pins.node = 127 then 126 else pins.node
        strap := pins.strap
        addressDefaulted := decide (pins.node = 0 ∨ pins.node = 127)
        status := c.status
        restartDue := c.restartDue } := by
  rw [StartController.enterScrub, addressDefaults_eq]; rfl

/-- The owner's request under a tag not cached, of a name that neither the link nor an operation holds up: its rule on the state with
DEAF ended. -/
theorem request_ofOwner {src : Node} {tag name : Byte} {params : List Byte} {n : RequestName} {rule : State → Request → Act}
    {s : State} (htakes : s.takes src params) (howner : s.mgmt.owner = some src) (htag : s.mgmt.cached tag = none)
    (hbusy : n.takenWhileBusy = true) :
    request src tag name params (some n) rule s =
      .next ((rule s.endDeaf ⟨src, tag, name, params⟩).apply ⟨src, tag, name, params⟩) := by
  obtain ⟨-, hstarted, -⟩ := id htakes
  have howner' : s.endDeaf.mgmt.owner = some src := by rw [State.endDeaf_mgmt, howner]
  rw [request_taken htakes, takeRequest_ofOwner hstarted howner, htag]
  exact congrArg _ (judge_rule (.inl howner') (.inr hbusy))

/-- Settles O4. -/
theorem scrubIsEntered : Obligations.ScrubIsEntered := by
  refine ⟨fun s pins => ?_, fun s src tag pins htakes howner htag => ?_⟩
  · show Host.Outcome.next (s.pinReset.enterScrub pins none none) = _
    rw [State.enterScrub, atReset_enterScrub]; rfl
  · have hexec : exec (.coldRestart src tag pins) s =
        .next (s.endDeaf.enterScrub pins s.endDeaf.ports.tSending s.endDeaf.ports.fSending) :=
      request_ofOwner htakes howner htag rfl
    rw [hexec, State.enterScrub, atReset_enterScrub]
    cases hlink : s.emitter.link with
    | normal => rw [endDeaf_normal hlink]; rfl
    | deaf => rw [endDeaf_deaf hlink]; rfl

/-- Settles O5, strap by strap. -/
theorem endOfScrubStarts : Obligations.EndOfScrubStarts := by
  intro s hreset hpart
  show execEndOfScrub s = _
  rw [execEndOfScrub, whenReleased_released hreset, if_pos hpart]
  cases s.start.strap <;> rfl

/-! ## RESTART of level WARM -/

/-- Settles O6: whatever the end of DEAF changes, the restart overwrites. -/
theorem warmRestartKeepsConfiguration : Obligations.WarmRestartKeepsConfiguration := by
  intro s src tag htakes howner htag
  have hexec : exec (.warmRestart src tag) s =
      .next (s.endDeaf.respond ⟨src, tag, RequestName.code .restart, [1]⟩ .done .none).warm :=
    request_ofOwner htakes howner htag rfl
  rw [hexec, respond_owner _ _ (by rw [State.endDeaf_mgmt, howner])]
  cases hlink : s.emitter.link with
  | normal => rw [endDeaf_normal hlink]; rfl
  | deaf => rw [endDeaf_deaf hlink]; rfl

/-! ## HOLD and RELEASE -/

theorem holdRule_nonempty {s : State} {q : Request} (h : q.params ≠ []) : holdRule s q = .answer s .badRequest .none := by
  obtain ⟨b, l, hparams⟩ := List.exists_cons_of_ne_nil h
  rw [holdRule, hparams]

theorem releaseRule_nonempty {s : State} {q : Request} (h : q.params ≠ []) : releaseRule s q = .answer s .badRequest .none := by
  obtain ⟨b, l, hparams⟩ := List.exists_cons_of_ne_nil h
  rw [releaseRule, hparams]

theorem release_owner (s : State) : s.release.mgmt.owner = s.mgmt.owner := by
  rw [State.release, State.noticeRestart_mgmt]; rfl

theorem released_generation (t : TableStore) : t.released.generation = t.generation := by
  rw [TableStore.released, TableStore.setActive_generation]; rfl

/-- A RELEASE at a NORMAL link, field by field (R182). -/
theorem release_eq {s : State} (hlink : s.emitter.link = .normal) :
    s.release =
      { s with
        tables := s.tables.released
        queue := if s.start.restartDue = true then s.queue.add s.emitter.classes s.restartedClaim else s.queue
        start := { s.start with part := .running, startAlert := false, alert := false, restartDue := false } } := by
  have halert : s.start.clearStartAlert s.emitter.link = { s.start with startAlert := false, alert := false } := by
    rw [hlink]; rfl
  rw [State.release, halert, State.noticeRestart]
  by_cases hdue : s.start.restartDue = true
  · simp only [State.withStart_start, hdue, if_true, State.restartedClaim, State.withStart_tables, State.withTables_tables,
      released_generation]
    rfl
  · rw [Bool.not_eq_true] at hdue
    simp only [State.withStart_start, hdue, Bool.false_eq_true, if_false]
    simp only [← hdue]
    rfl

theorem released_eq (t : TableStore) :
    t.released =
      ({ t with bankA := t.bankA.clearRuns, bankB := t.bankB.clearRuns } : TableStore).setActive
        { entries := t.active.clearRuns.entries
          slots := t.active.slots.map fun x => { x with state := .unheard, timer := .running x.limit x.limit } } := by
  simp only [TableStore.released, TableStore.mapBanks_active]; rfl

/-- Settles O7. -/
theorem holdAndRelease : Obligations.HoldAndRelease := by
  refine ⟨fun s src tag params hready => ?_, fun s src tag params hready => ?_⟩
  · by_cases hparams : params = []
    · subst hparams
      rw [if_neg (by simp)]
      split
      · next hpart =>
        exact request_answer (t := s.hold) hready (if_pos (decide_eq_true hpart)) rfl
      · next hpart =>
        exact request_answer hready (if_neg (by rwa [isRunning_iff])) rfl
    · rw [if_pos hparams]
      exact request_answer hready (holdRule_nonempty hparams) rfl
  · by_cases hparams : params = []
    · subst hparams
      rw [if_neg (by simp)]
      split
      · next hpart =>
        refine (request_answer (t := s.release) hready (if_pos hpart) (release_owner s)).trans ?_
        have ⟨_, _, hlink, _⟩ := hready
        rw [release_eq hlink, released_eq]
        rfl
      · next hpart => exact request_answer hready (if_neg hpart) rfl
    · rw [if_pos hparams]
      exact request_answer hready (releaseRule_nonempty hparams) rfl

end Sys2Proof.Machine
end

section
/-!
PROOFS. The image load (R175 to R178): the header, a record answered whole, and the end.
-/

namespace Sys2Proof.Machine

set_option Elab.async false

/-! ## The header -/

theorem readHeader_five (version high low preset flags : Byte) (rest : List Byte) :
    readHeader (version :: high :: low :: preset :: flags :: rest) =
      if version ≠ 1 then .error .record
      else if high.toNat * 256 + low.toNat < 1 ∨ 1100 < high.toNat * 256 + low.toNat ∨ 126 < preset.toNat then .error .range
      else
        .ok ⟨high.toNat * 256 + low.toNat, if preset = 0 then none else some (preset.setWidth 7), flags.getLsbD 0⟩ := by
  simp only [readHeader, word_toNat]; rfl

/-- Settles O8: a short answer is NO-MEMORY by computation; five bytes are judged field by field. -/
theorem imageHeaderIsJudged : Obligations.ImageHeaderIsJudged := by
  intro s answer hreset hpart hphase
  rw [exec_imageHeaderRead hreset hpart hphase]
  obtain _ | ⟨version, _ | ⟨high, _ | ⟨low, _ | ⟨preset, _ | ⟨flags, rest⟩⟩⟩⟩⟩ := answer
  case cons.cons.cons.cons.cons =>
    simp only [readHeader_five]
    by_cases hversion : version ≠ 1
    · rw [if_pos hversion, if_pos hversion]; rfl
    · rw [if_neg hversion, if_neg hversion]
      by_cases hrange : high.toNat * 256 + low.toNat < 1 ∨ 1100 < high.toNat * 256 + low.toNat ∨ 126 < preset.toNat
      · rw [if_pos hrange, if_pos hrange]; rfl
      · rw [if_neg hrange, if_neg hrange]; rfl
  all_goals rfl

/-! ## A record -/

theorem readRecord_pointEntry {content : List Byte} (h : content.length = 12) :
    readRecord (1 :: 12 :: content) =
      match readEntryConfig content with
      | some c => .ok (.pointEntry c, 1 :: 12 :: content)
      | none => .error .range := by
  rw [readRecord_whole h, if_neg (by simp [recordLengthOk])]
  cases hread : readEntryConfig content <;> simp [readRecordContent, hread]

theorem readRecord_module {content : List Byte} (h : content.length = 4) :
    readRecord (2 :: 4 :: content) =
      match readModuleListing content with
      | some (m, limit, cls) => .ok (.moduleEntry m limit cls, 2 :: 4 :: content)
      | none => .error .range := by
  rw [readRecord_whole h, if_neg (by simp [recordLengthOk])]
  cases hread : readModuleListing content <;> simp [readRecordContent, hread]

theorem readRecord_class {content : List Byte} (h : content.length = 5) :
    readRecord (3 :: 5 :: content) =
      match readClassSetting content with
      | some (c, x) => .ok (.classSetting c x, 3 :: 5 :: content)
      | none => .error .range := by
  rw [readRecord_whole h, if_neg (by simp [recordLengthOk])]
  cases hread : readClassSetting content <;> simp [readRecordContent, hread]

theorem readRecord_part {len : Byte} {content : List Byte} (h : content.length = len.toNat)
    (hlen : len.toNat = partLength (content.getD 0 0)) :
    readRecord (4 :: len :: content) =
      match readPartParams content with
      | some f => .ok (.partSetting f, 4 :: len :: content)
      | none => .error .range := by
  have hok : recordLengthOk 4 len.toNat content = true := by simp only [recordLengthOk]; exact beq_iff_eq.mpr hlen
  have hfits : ¬((4 : Byte).toNat < 1 ∨ 4 < (4 : Byte).toNat ∨ recordLengthOk 4 len.toNat content = false) := by
    rw [hok]; decide
  rw [readRecord_whole h, if_neg hfits]
  cases hread : readPartParams content <;> simp [readRecordContent, hread]

/-- A record answered whole of any other kind or length (R176, R188). -/
theorem readRecord_refused {kind len : Byte} {content : List Byte} (h : content.length = len.toNat) (h1 : ¬(kind = 1 ∧ len = 12))
    (h2 : ¬(kind = 2 ∧ len = 4)) (h3 : ¬(kind = 3 ∧ len = 5)) (h4 : ¬(kind = 4 ∧ len.toNat = partLength (content.getD 0 0))) :
    readRecord (kind :: len :: content) = .error .record := by
  rw [readRecord_whole h, if_pos]
  by_contra hfits
  have hkinds : kind = 1 ∨ kind = 2 ∨ kind = 3 ∨ kind = 4 := by
    have : 1 ≤ kind.toNat ∧ kind.toNat ≤ 4 := by omega
    bv_omega
  have hlength : recordLengthOk kind len.toNat content = true := by
    simp only [not_or, Bool.not_eq_false] at hfits
    exact hfits.2.2
  obtain rfl | rfl | rfl | rfl := hkinds
  · exact h1 ⟨rfl, by have : len.toNat = 12 := beq_iff_eq.mp hlength; bv_omega⟩
  · exact h2 ⟨rfl, by have : len.toNat = 4 := beq_iff_eq.mp hlength; bv_omega⟩
  · exact h3 ⟨rfl, by have : len.toNat = 5 := beq_iff_eq.mp hlength; bv_omega⟩
  · exact h4 ⟨rfl, beq_iff_eq.mp hlength⟩

/-- Settles O9, kind by kind. -/
theorem imageRecordIsApplied : Obligations.ImageRecordIsApplied := by
  intro s left hreset hpart hphase
  refine ⟨exec_imageRecordRead hreset hpart hphase, fun kind len content hlength => ?_⟩
  rw [exec_imageRecordRead hreset hpart hphase]
  dsimp only
  by_cases h1 : kind = 1 ∧ len = 12
  · rw [if_pos h1]
    obtain ⟨rfl, rfl⟩ := h1
    rw [readRecord_pointEntry hlength]
    cases readEntryConfig content with
    | none => rfl
    | some c => cases hroom : s.tables.hasRoom c.key <;> simp only [State.recordOverflows, hroom] <;> rfl
  rw [if_neg h1]
  by_cases h2 : kind = 2 ∧ len = 4
  · rw [if_pos h2]
    obtain ⟨rfl, rfl⟩ := h2
    rw [readRecord_module hlength]
    cases readModuleListing content <;> rfl
  rw [if_neg h2]
  by_cases h3 : kind = 3 ∧ len = 5
  · rw [if_pos h3]
    obtain ⟨rfl, rfl⟩ := h3
    rw [readRecord_class hlength]
    cases readClassSetting content <;> rfl
  rw [if_neg h3]
  by_cases h4 : kind = 4 ∧ len.toNat = partLength (content.getD 0 0)
  · rw [if_pos h4]
    obtain ⟨rfl, hlen⟩ := h4
    rw [readRecord_part hlength hlen]
    cases readPartParams content <;> rfl
  rw [if_neg h4, readRecord_refused hlength h1 h2 h3 h4]
  rfl

/-! ## The end -/

theorem firstUnlisted_eq_none_iff (b : Bank) :
    b.firstUnlisted = none ↔ (b.entries.any fun e => !b.lists e.config.key.station) = false := by
  simp [Bank.firstUnlisted, List.find?_eq_none]

/-- The commit of a load, which finds the ACTIVE bank empty: nothing to transfer, nothing to stop (R126 to R128, R177). -/
theorem commit_of_empty {t : TableStore} (h : t.active = .empty) (running : Bool) :
    t.commit running =
      { t.setStaging
          { entries := t.staging.entries.map fun e => { e with run := .emptied }
            slots := t.staging.slots.map fun x =>
              { x with state := .unheard, timer := if running = true then .running x.limit x.limit else .stopped } } with
        mark := t.mark.other, generation := t.generation + 1, activity := .idle } := by
  obtain ⟨a, b, m, g, x⟩ := t
  cases m
  · obtain rfl : a = .empty := h
    rfl
  · obtain rfl : b = .empty := h
    rfl

/-- A load that succeeds, field by field (R177). -/
theorem loadSucceeds_eq {s : State} (hactive : s.tables.active = .empty) :
    s.loadSucceeds =
      { s with
        tables :=
          { s.tables.setStaging
              { entries := s.tables.staging.entries.map fun e => { e with run := .emptied }
                slots := s.tables.staging.slots.map fun x =>
                  { x with
                    state := .unheard
                    timer := if s.start.loader.run = true then .running x.limit x.limit else .stopped } } with
            mark := s.tables.mark.other, generation := s.tables.generation + 1 }
        emitter :=
          { s.emitter with
            classes := s.start.loader.classes
            credits := .ofFn fun c => (s.start.loader.classes.get c).creditLimit
            refill := .ofFn fun c => refillTimer (s.start.loader.classes.get c).period }
        mgmt := { s.mgmt with owner := s.start.loader.preset }
        queue :=
          if s.start.loader.run = true then
            s.queue.add s.start.loader.classes
              ⟨{ headReport .restarted s.start.loader.settings.headClass s.sweep.cycle with
                  restart := some ⟨.imageLoaded, s.tables.generation + 1⟩ }, false⟩
          else s.queue
        start :=
          { s.start with
            part := if s.start.loader.run = true then .running else .held
            status := .imageLoaded
            restartDue := !s.start.loader.run
            settings := s.start.loader.settings
            loader := .atRest } } := by
  simp only [State.loadSucceeds, commit_of_empty hactive, StartController.loaded]
  cases s.start.loader.run
  · simp only [Bool.false_eq_true, if_false, TableStore.setStaging_activity]; rfl
  · simp only [if_true, TableStore.setStaging_activity]; rfl

/-- Settles O10. -/
theorem imageEndDecidesTheLoad : Obligations.ImageEndDecidesTheLoad := by
  intro s answer hreset hpart hphase hsupervised
  rw [exec_imageCrcRead hreset hpart hphase]
  obtain ⟨-, -, hload⟩ := hsupervised
  obtain ⟨hactive, -⟩ := hload ((not_started_iff s).mpr (.inr hpart))
  obtain _ | ⟨high, _ | ⟨low, rest⟩⟩ := answer
  case cons.cons =>
    show Host.Outcome.next (s.finishLoad (word high low)) = _
    rw [State.finishLoad]
    by_cases hcrc : word high low ≠ s.start.loader.crc
    · rw [if_pos hcrc]; exact congrArg Host.Outcome.next (if_pos hcrc).symm
    · rw [if_neg hcrc]
      refine congrArg Host.Outcome.next (.trans ?_ (if_neg hcrc).symm)
      cases hunlisted : s.tables.staging.firstUnlisted with
      | none => rw [if_neg (by rw [(firstUnlisted_eq_none_iff _).mp hunlisted]; simp), loadSucceeds_eq hactive]
      | some k =>
        have hany := mt (firstUnlisted_eq_none_iff s.tables.staging).mpr (by simp [hunlisted])
        rw [Bool.not_eq_false] at hany
        rw [if_pos hany]; rfl
  all_goals rfl

end Sys2Proof.Machine
end

section
/-!
PROOFS. POINT frames on the F-port (R22 to R27, R41, R44, R47, R48, R136 to R143): what one changes, with every alternative.
-/

namespace Sys2Proof.Machine

set_option Elab.async false

/-! ## The items of a frame -/

theorem keeps_iff (p : ForwardPolicy) (t : Option Transition) :
    p.keeps t = true ↔ p = .always ∨ (p = .onChange ∧ t ≠ none) := by
  cases p <;> cases t <;> simp [ForwardPolicy.keeps]

/-- Settles O15: the first item is dealt with on the bank as it stands, and the rest on what it leaves. -/
theorem itemsInFrameOrder : Obligations.ItemsInFrameOrder := by
  intro origin policy cycle b
  refine ⟨rfl, fun i rest => ?_⟩
  have hfirst : evaluateItems origin policy cycle b (i :: rest) =
      rest.foldl (Evaluation.item origin policy cycle) (Evaluation.item origin policy cycle ⟨b, [], []⟩ i) := rfl
  rw [hfirst, foldl_item]
  cases hentry : b.entry? ⟨origin, i.point⟩ with
  | none =>
    simp only [Evaluation.item, hentry]
    split <;> rfl
  | some e =>
    obtain ⟨hkey, -⟩ := Bank.entry?_some hentry
    simp only [Evaluation.item, hentry, hkey, keeps_iff, List.nil_append]

/-! ## The treatment of a POINT frame -/

theorem exec_pointFrame {s : State} {bytes : List Byte} {src : Node} {origin : Station} {items : List Item}
    (hreset : s.start.resetHeld = false) (hframe : receive true bytes = some ⟨0, src, .point origin items⟩)
    (hown : s.start.ownNode ≠ 0) : exec (.fPortFrameReceived bytes) s = .next (s.takePoint origin items) := by
  rw [exec_fPortFrame_good hreset hframe, routeField_point hown]

theorem pointFrame_items_ne_nil {bytes : List Byte} {dest src : Node} {origin : Station} {items : List Item}
    (hframe : receive true bytes = some ⟨dest, src, .point origin items⟩) : items ≠ [] := by
  obtain ⟨hitems, -⟩ := receive_point_items hframe
  exact List.ne_nil_of_length_pos hitems

/-- The kept items and their claim are the offer of one rebuilt frame (R143). -/
theorem forward_raise {s : State} {origin : Station} {items : List Item} (h : items ≠ []) :
    (s.forward origin items).raise (s.forwardClaims items) = s.offerUp (s.rebuiltFrame origin items) := by
  cases hroom : s.upRoom <;> simp [State.forward, State.forwardClaims, State.offerUp, hroom, h]

/-- A frame that no module is heard by and no item of which is evaluated: what is kept of it is offered to the Up FIFO. -/
theorem takePoint_unheard {s : State} {origin : Station} {items kept : List Item} (hheard : s.heard origin = none)
    (heval : s.evaluateFrame origin items = ⟨s.tables.active, [], kept⟩) :
    s.takePoint origin items = (s.forward origin kept).raise (s.forwardClaims kept) := by
  simp only [State.takePoint, State.bankAfterFrame, State.supervisorClaims, hheard, heval, TableStore.setActive_self, true_or,
    if_true, List.nil_append]
  rfl

theorem heard_of_not_running {s : State} (h : s.start.part ≠ .running) (origin : Station) : s.heard origin = none :=
  if_neg (by rwa [isRunning_iff])

theorem heard_of_unlisted {s : State} {origin : Station} (h : s.tables.active.lists origin = false) : s.heard origin = none := by
  rw [Bank.lists, Option.isSome_eq_false_iff, Option.isNone_iff_eq_none] at h
  rw [State.heard, h, ite_self]

theorem evaluateFrame_of_not_idle {s : State} {origin : Station} {items : List Item}
    (h : ¬(s.start.part = .running ∧ s.tables.activity = .idle)) : s.evaluateFrame origin items = ⟨s.tables.active, [], items⟩ :=
  if_neg (by rwa [isRunning_iff])

theorem evaluateFrame_of_unlisted {s : State} {origin : Station} {items : List Item} (hrunning : s.start.part = .running)
    (hidle : s.tables.activity = .idle) (hlists : s.tables.active.lists origin = false) :
    s.evaluateFrame origin items = ⟨s.tables.active, [], if s.start.settings.modulePolicy = .drop then [] else items⟩ := by
  have hrun : s.isRunning = true := decide_eq_true hrunning
  simp only [State.evaluateFrame, hrun, hidle, hlists, and_self, if_true, Bool.false_eq_true, if_false]
  cases s.start.settings.modulePolicy <;> rfl

theorem evaluateFrame_of_listed {s : State} {origin : Station} {items : List Item} {x : Slot} (hrunning : s.start.part = .running)
    (hidle : s.tables.activity = .idle) (hslot : s.tables.active.slot? origin = some x) :
    s.evaluateFrame origin items =
      evaluateItems origin s.start.settings.pointPolicy s.sweep.cycle s.tables.active items := by
  have hrun : s.isRunning = true := decide_eq_true hrunning
  have hlists : s.tables.active.lists origin = true := by rw [Bank.lists, hslot]; rfl
  simp only [State.evaluateFrame, hrun, hidle, hlists, and_self, if_true]

/-- Settles O12: the frame is dropped by policy, or offered whole to the Up FIFO. -/
theorem unevaluatedFramesPassWhole : Obligations.UnevaluatedFramesPassWhole := by
  intro s bytes src origin items hreset hframe hown hunheard
  rw [exec_pointFrame hreset hframe hown]
  have hheard : s.heard origin = none := hunheard.elim (heard_of_not_running · origin) heard_of_unlisted
  by_cases hdrop : s.start.part = .running ∧ s.tables.activity = .idle ∧ s.start.settings.modulePolicy = .drop
  · rw [if_pos hdrop]
    obtain ⟨hrunning, hidle, hpolicy⟩ := hdrop
    have hlists := hunheard.resolve_left (not_not.mpr hrunning)
    have heval := evaluateFrame_of_unlisted (items := items) hrunning hidle hlists
    rw [if_pos hpolicy] at heval
    rw [takePoint_unheard hheard heval]
    rfl
  · rw [if_neg hdrop]
    have heval : s.evaluateFrame origin items = ⟨s.tables.active, [], items⟩ := by
      by_cases hidle : s.start.part = .running ∧ s.tables.activity = .idle
      · obtain ⟨hrunning, hactivity⟩ := hidle
        have hlists := hunheard.resolve_left (not_not.mpr hrunning)
        rw [evaluateFrame_of_unlisted hrunning hactivity hlists, if_neg fun hpolicy => hdrop ⟨hrunning, hactivity, hpolicy⟩]
      · exact evaluateFrame_of_not_idle hidle
    rw [takePoint_unheard hheard heval, forward_raise (pointFrame_items_ne_nil hframe), offerUp_eq]
    rfl

/-! ## A frame of a listed module -/

/-- A frame of a listed module taken in RUNNING, with the claims in the order in which they reach the queue. -/
def State.hearing (s : State) (origin : Station) (items : List Item) (x : Slot) (claims : List Claim) : State :=
  { s with
    tables := s.tables.setActive ((s.evaluateFrame origin items).bank.setSlot origin .live (.running x.limit x.limit))
    ports :=
      { s.ports with
        up :=
          if (s.evaluateFrame origin items).kept ≠ [] ∧ s.ports.up.length < 8 then
            s.ports.up ++ [.rebuilt (s.mgmt.owner.getD 127) origin (s.evaluateFrame origin items).kept]
          else s.ports.up }
    queue := claims.foldl (fun q c => q.add s.emitter.classes c) s.queue }

theorem hearing_eq {s : State} {origin : Station} {items : List Item} {x : Slot} (hheard : s.heard origin = some x)
    (claims : List Claim) :
    ((s.withTables (s.tables.setActive (s.bankAfterFrame origin items))).forward origin (s.evaluateFrame origin items).kept).raise
        claims = s.hearing origin items x claims := by
  obtain ⟨-, hslot⟩ := heard_some hheard
  obtain ⟨hstation, -⟩ := Bank.slot?_some hslot
  simp only [State.bankAfterFrame, hheard, Bank.hear, hstation, State.forward, State.hearing, State.upRoom,
    decide_eq_false_iff_not, Config.fifoCapacity]
  by_cases hkept : (s.evaluateFrame origin items).kept ≠ [] ∧ s.ports.up.length < 8
  · rw [if_pos hkept, if_neg (by tauto)]; rfl
  · rw [if_neg hkept, if_pos (by tauto)]; rfl

/-- The UPLINK-FULL of the kept items in RUNNING (R143). -/
theorem forwardClaims_of_running {s : State} (h : s.start.part = .running) (kept : List Item) :
    s.forwardClaims kept = if kept ≠ [] ∧ 8 ≤ s.ports.up.length then [s.headClaim .uplinkFull] else [] := by
  have hstarted : s.started = true := (started_iff s).mpr (.inr h)
  simp only [State.forwardClaims, State.uplinkClaims, hstarted, if_true, State.upRoom, Config.fifoCapacity, decide_eq_true_eq]
  by_cases hfull : kept ≠ [] ∧ 8 ≤ s.ports.up.length
  · rw [if_pos hfull, if_neg (by rw [not_or, not_lt]; exact hfull)]
  · rw [if_neg hfull, if_pos (by rw [← not_lt] at hfull; tauto)]

/-- A module that is not SILENT adds no report of its own (R48). -/
theorem takePoint_heard {s : State} {origin : Station} {items : List Item} {x : Slot} (hheard : s.heard origin = some x)
    (hsilent : x.state ≠ .silent) :
    s.takePoint origin items =
      s.hearing origin items x ((s.evaluateFrame origin items).claims ++ s.forwardClaims (s.evaluateFrame origin items).kept) := by
  have hclaims : s.supervisorClaims origin = [] := by simp only [State.supervisorClaims, hheard, resumedClaim, if_neg hsilent]
  rw [← hearing_eq hheard, State.takePoint, hclaims]
  exact if_pos (.inl rfl)

/-- A SILENT module's RESUMED comes at some place among the other reports (R48; log 13). -/
theorem takePoint_resumed {s : State} {origin : Station} {items : List Item} {x : Slot} (hheard : s.heard origin = some x)
    (hsilent : x.state = .silent) {others : List Claim}
    (hothers : (s.evaluateFrame origin items).claims ++ s.forwardClaims (s.evaluateFrame origin items).kept = others) :
    ∃ place n : Nat, place ≤ others.length ∧ (others = [] → n = s.freeCount) ∧
      s.takePoint origin items =
        { s.hearing origin items x
            (others.take place ++ [⟨newReport .resumed x.cls (.station origin) s.sweep.cycle, false⟩] ++ others.drop place) with
          freeCount := n } := by
  obtain ⟨-, hslot⟩ := heard_some hheard
  obtain ⟨hstation, -⟩ := Bank.slot?_some hslot
  have hclaims : s.supervisorClaims origin = [⟨newReport .resumed x.cls (.station origin) s.sweep.cycle, false⟩] := by
    simp only [State.supervisorClaims, hheard, resumedClaim, if_pos hsilent, moduleReport, hstation]
  by_cases hnone : others = []
  · refine ⟨0, s.freeCount, Nat.zero_le _, fun _ => rfl, ?_⟩
    simp only [State.takePoint, hothers, hnone, hclaims, or_true, if_true, hearing_eq hheard]
    rfl
  · refine ⟨Config.freeOrder s.freeCount % (others.length + 1), s.freeCount + 1, Nat.le_of_lt_succ (Nat.mod_lt _ (Nat.succ_pos _)),
      fun hothers => absurd hothers hnone, ?_⟩
    simp only [State.takePoint, hothers, hnone, hclaims, List.cons_ne_nil, or_self, if_false, interleave, hearing_eq hheard]
    rfl

theorem heard_of_running {s : State} {origin : Station} {x : Slot} (hrunning : s.start.part = .running)
    (hslot : s.tables.active.slot? origin = some x) : s.heard origin = some x := by
  rw [State.heard, if_pos ((isRunning_iff s).mpr hrunning), hslot]

/-- Settles O14: the claims are the items' and the UPLINK-FULL, and the RESUMED of a SILENT module at some place. -/
theorem evaluatedFrame : Obligations.EvaluatedFrame := by
  intro s bytes src origin items x hreset hframe hown hrunning hidle hslot e resumed full raised taken
  have hheard := heard_of_running hrunning hslot
  have heval : s.evaluateFrame origin items = e := evaluateFrame_of_listed hrunning hidle hslot
  have hraised : (s.evaluateFrame origin items).claims ++ s.forwardClaims (s.evaluateFrame origin items).kept = raised := by
    rw [heval, forwardClaims_of_running hrunning]; rfl
  have htaken : ∀ claims, s.hearing origin items x claims = taken claims := fun claims => by rw [State.hearing, heval]
  rw [exec_pointFrame hreset hframe hown]
  refine ⟨fun hsilent => ?_, fun hsilent => ?_⟩
  · rw [takePoint_heard hheard hsilent, hraised, htaken]
  · obtain ⟨place, n, hplace, -, htake⟩ := takePoint_resumed hheard hsilent hraised
    exact ⟨place, n, hplace, by rw [htake, htaken]⟩

/-- Settles O13: the only claims are the UPLINK-FULL of a full FIFO and the RESUMED of a SILENT module. -/
theorem moduleHeardDuringOperation : Obligations.ModuleHeardDuringOperation := by
  intro s bytes src origin items x hreset hframe hown hrunning hbusy hslot resumed full taken
  have hheard := heard_of_running hrunning hslot
  have hitems := pointFrame_items_ne_nil hframe
  have heval : s.evaluateFrame origin items = ⟨s.tables.active, [], items⟩ := evaluateFrame_of_not_idle fun h => hbusy h.2
  have htaken : ∀ claims, s.hearing origin items x claims = taken claims := fun claims => by
    simp only [State.hearing, heval, hitems, ne_eq, not_false_eq_true, true_and]; rfl
  have hothers : (s.evaluateFrame origin items).claims ++ s.forwardClaims (s.evaluateFrame origin items).kept =
      if 8 ≤ s.ports.up.length then [full] else [] := by
    simp only [heval, forwardClaims_of_running hrunning, hitems, ne_eq, not_false_eq_true, true_and, List.nil_append]; rfl
  rw [exec_pointFrame hreset hframe hown]
  refine ⟨fun hroom => ?_, fun hfull hsilent => ?_, fun hfull hsilent => ?_⟩
  · rw [if_neg hroom.not_ge] at hothers
    by_cases hsilent : x.state = .silent
    · obtain ⟨place, n, -, hn, htake⟩ := takePoint_resumed hheard hsilent hothers
      rw [htake, htaken, if_pos hsilent, hn rfl, List.take_nil, List.drop_nil]; rfl
    · rw [takePoint_heard hheard hsilent, hothers, htaken, if_neg hsilent]
  · rw [takePoint_heard hheard hsilent, hothers, htaken, if_pos hfull]
  · rw [if_pos hfull] at hothers
    obtain ⟨place, n, hplace, -, htake⟩ := takePoint_resumed hheard hsilent hothers
    refine ⟨_, n, ?_, by rw [htake, htaken]⟩
    obtain rfl | rfl : place = 0 ∨ place = 1 := by simp at hplace; omega
    · exact .inl rfl
    · exact .inr rfl

/-! ## What no frame of the F-port changes (R44) -/

/-- What R44 and the routing leave as they were. -/
abbrev State.keepsConfiguration (s t : State) : Prop :=
  t.tables.staging = s.tables.staging ∧
    t.tables.active.entries.map Entry.config = s.tables.active.entries.map Entry.config ∧
    t.tables.active.slots.map (fun x => (x.station, x.limit, x.cls)) =
      s.tables.active.slots.map (fun x => (x.station, x.limit, x.cls)) ∧
    t.tables.mark = s.tables.mark ∧ t.tables.generation = s.tables.generation ∧ t.tables.activity = s.tables.activity ∧
    t.emitter = s.emitter ∧ t.sweep = s.sweep ∧ t.mgmt = s.mgmt ∧ t.start = s.start ∧ t.pending = s.pending ∧
    ∃ up fErrors fRefused, t.ports = { s.ports with up := up, fErrors := fErrors, fRefused := fRefused }

theorem keepsConfiguration_of_ports (s : State) (q : ReportQueue) (up : List UpFrame) (fErrors fRefused : Nat) :
    s.keepsConfiguration
      { s with queue := q, ports := { s.ports with up := up, fErrors := fErrors, fRefused := fRefused } } :=
  ⟨rfl, rfl, rfl, rfl, rfl, rfl, rfl, rfl, rfl, rfl, rfl, up, fErrors, fRefused, rfl⟩

theorem bankAfterFrame_keeps (s : State) (origin : Station) (items : List Item) :
    (s.bankAfterFrame origin items).entries.map Entry.config = s.tables.active.entries.map Entry.config ∧
      (s.bankAfterFrame origin items).slots.map (fun x => (x.station, x.limit, x.cls)) =
        s.tables.active.slots.map (fun x => (x.station, x.limit, x.cls)) := by
  obtain ⟨hentries, hslots⟩ := evaluateFrame_keeps s origin items
  simp only [State.bankAfterFrame]
  split
  · refine ⟨hentries, ?_⟩
    simp only [Bank.hear, Bank.setSlot, Bank.mapSlots, List.map_map, hslots]
    rfl
  · exact ⟨hentries, by rw [hslots]⟩

theorem takePoint_keepsConfiguration (s : State) (origin : Station) (items : List Item) :
    s.keepsConfiguration (s.takePoint origin items) := by
  obtain ⟨q, up, n, htake⟩ := takePoint_eq s origin items
  obtain ⟨hentries, hslots⟩ := bankAfterFrame_keeps s origin items
  rw [htake]
  refine ⟨TableStore.setActive_staging .., ?_, ?_, TableStore.setActive_mark .., TableStore.setActive_generation ..,
    TableStore.setActive_activity .., rfl, rfl, rfl, rfl, rfl, up, s.ports.fErrors, s.ports.fRefused, rfl⟩
  · rw [TableStore.setActive_active, hentries]
  · rw [TableStore.setActive_active, hslots]

theorem routeField_keepsConfiguration (s : State) (bytes : List Byte) (f : LinkFrame) :
    s.keepsConfiguration (s.routeField bytes f) := by
  have hkeep := keepsConfiguration_of_ports s
  simp only [State.routeField]
  split
  · exact hkeep s.queue s.ports.up s.ports.fErrors (tally s.ports.fRefused)
  · split
    · split
      · exact takePoint_keepsConfiguration ..
      · exact hkeep s.queue s.ports.up s.ports.fErrors (tally s.ports.fRefused)
    · split
      · obtain ⟨-, hoffer⟩ | ⟨-, hoffer⟩ := offerUp_cases s (.passed bytes) <;> rw [hoffer]
        · exact hkeep s.queue (s.ports.up ++ [.passed bytes]) s.ports.fErrors s.ports.fRefused
        · exact hkeep _ s.ports.up s.ports.fErrors s.ports.fRefused
      · exact hkeep s.queue s.ports.up s.ports.fErrors s.ports.fRefused

/-- Settles O21, line by line of the routing. -/
theorem fieldFramesChangeNoConfiguration : Obligations.FieldFramesChangeNoConfiguration := by
  intro s t bytes h
  show s.keepsConfiguration t
  simp only [exec, execFPortFrameReceived] at h
  obtain ⟨-, ht⟩ | ⟨-, ht⟩ := whenReleased_cases h <;> rw [ht]
  · exact keepsConfiguration_of_ports s s.queue s.ports.up s.ports.fErrors s.ports.fRefused
  · cases receive true bytes with
    | some f => exact routeField_keepsConfiguration s bytes f
    | none => exact keepsConfiguration_of_ports s s.queue s.ports.up (tally s.ports.fErrors) s.ports.fRefused

end Sys2Proof.Machine
end

section
/-!
PROOFS. The layouts of Section 11: what is written is read back, and the receive checks pass exactly what R134 and R185 describe.
-/

namespace Sys2Proof.Machine

set_option Elab.async false

/-! ## Small fields, both ways -/

theorem byteOf_eq_of_toNat {b : Byte} {n : Nat} (h : b.toNat = n) : b = byteOf n := by
  rw [byteOf, ← h, BitVec.ofNat_toNat, BitVec.setWidth_eq]

theorem readStation_some_iff {b : Byte} {m : Station} : readStation b = some m ↔ 1 ≤ m.val ∧ b = byteOf m.val := by
  constructor
  · intro h
    simp only [readStation] at h
    split at h
    · next hrange => cases h; exact ⟨hrange.1, byteOf_eq_of_toNat rfl⟩
    · cases h
  · rintro ⟨hpos, rfl⟩; exact readStation_byteOf hpos

theorem readPoint_some_iff {b : Byte} {p : Fin 32} : readPoint b = some p ↔ b = byteOf p.val := by
  constructor
  · intro h
    simp only [readPoint] at h
    split at h
    · cases h; exact byteOf_eq_of_toNat rfl
    · cases h
  · rintro rfl; exact readPoint_byteOf p

theorem readQuality_some_iff {b : Byte} {q : Quality} : readQuality b = some q ↔ b = q.code := by
  constructor
  · intro h
    unfold readQuality at h
    split at h
    · next h0 => cases h; exact byteOf_eq_of_toNat h0
    · next h1 => cases h; exact byteOf_eq_of_toNat h1
    · cases h
  · rintro rfl; exact readQuality_code q

theorem wordBytes_word (h l : Byte) : wordBytes (word h l) = [h, l] := by
  have hhigh : (word h l).extractLsb' 8 8 = h := by
    apply BitVec.eq_of_toNat_eq
    rw [BitVec.extractLsb'_toNat, word_toNat, Nat.shiftRight_eq_div_pow]
    have := h.isLt; have := l.isLt; omega
  have hlow : (word h l).extractLsb' 0 8 = l := by
    apply BitVec.eq_of_toNat_eq
    rw [BitVec.extractLsb'_toNat, word_toNat, Nat.shiftRight_eq_div_pow]
    have := h.isLt; have := l.isLt; omega
  rw [wordBytes, hhigh, hlow]

/-! ## POINT payloads -/

theorem readItems_some_iff {n : Nat} {l : List Byte} {items : List Item} :
    readItems n l = some items ↔ items.length = n ∧ l = items.flatMap itemBytes := by
  induction n generalizing l items with
  | zero => cases l <;> cases items <;> simp [readItems, itemBytes]
  | succ n ih =>
    constructor
    · intro h
      have hlength := readItems_length h
      rcases l with _ | ⟨a, _ | ⟨b, _ | ⟨c, _ | ⟨d, rest⟩⟩⟩⟩ <;> simp only [readItems, reduceCtorEq] at h
      split at h
      · next point quality items' hpoint hquality hitems =>
        cases h
        rw [readPoint_some_iff] at hpoint
        rw [readQuality_some_iff] at hquality
        obtain ⟨-, hrest⟩ := ih.mp hitems
        exact ⟨hlength, by rw [List.flatMap_cons, itemBytes, wordBytes_word, ← hrest, hpoint, hquality]; rfl⟩
      · cases h
    · rintro ⟨hlength, rfl⟩
      obtain _ | ⟨i, items⟩ := items
      · cases hlength
      · have hrest := ih.mpr ⟨Nat.succ.inj hlength, rfl⟩
        simp only [List.flatMap_cons, itemBytes, wordBytes, List.cons_append, List.nil_append, readItems, readPoint_byteOf,
          readQuality_code, hrest, word_bytes]

theorem readPointPayload_some_iff {payload : List Byte} {origin : Station} {items : List Item} :
    readPointPayload payload = some (origin, items) ↔
      1 ≤ origin.val ∧ 1 ≤ items.length ∧ items.length ≤ 8 ∧ payload = pointPayload origin items := by
  constructor
  · intro h
    unfold readPointPayload at h
    split at h
    · next o n rest =>
      split at h
      · next origin' items' hstation hitems =>
        split at h
        · next hcount =>
          cases h
          obtain ⟨hpos, rfl⟩ := readStation_some_iff.mp hstation
          obtain ⟨hlength, rfl⟩ := readItems_some_iff.mp hitems
          rw [hlength]
          exact ⟨hpos, hcount.1, hcount.2, by rw [pointPayload, hlength, ← byteOf_eq_of_toNat rfl]⟩
        · cases h
      · cases h
    · cases h
  · rintro ⟨hpos, hone, height, rfl⟩
    have hcount : (byteOf items.length).toNat = items.length := byteOf_toNat (by omega)
    have hitems : readItems items.length (items.flatMap itemBytes) = some items := readItems_some_iff.mpr ⟨rfl, rfl⟩
    simp only [pointPayload, readPointPayload, readStation_byteOf hpos, hcount, hitems, hone, height, and_self, if_true]

/-! ## Reading back (R184, R185, R187) -/

theorem flagByte_bits (c : EntryConfig) :
    (flagByte c).toNat < 16 ∧ (flagByte c).getLsbD 0 = c.reportReturn ∧ (flagByte c).getLsbD 1 = c.reportInitial ∧
      (flagByte c).getLsbD 2 = c.urgent ∧ (flagByte c).getLsbD 3 = c.carryPrior := by
  have hbits : ∀ r i u p : Bool,
      let b := byteOf (bitWeight r 1 + bitWeight i 2 + bitWeight u 4 + bitWeight p 8)
      b.toNat < 16 ∧ b.getLsbD 0 = r ∧ b.getLsbD 1 = i ∧ b.getLsbD 2 = u ∧ b.getLsbD 3 = p := by decide
  exact hbits ..

/-- The test fields are read back from kind, two words and sense (R187). -/
theorem testBytes_readTest (t : Test) (h : t.inRange = true) :
    ∃ (kind h1 l1 h2 l2 sense : Byte), testBytes t = [kind, h1, l1, h2, l2, sense] ∧
      readTest kind (word h1 l1) (word h2 l2) sense = some t := by
  cases t with
  | pattern mask compare => exact ⟨_, _, _, _, _, _, rfl, by rw [word_bytes, word_bytes]; rfl⟩
  | band low high sense =>
    have hband : low.toNat ≤ high.toNat := of_decide_eq_true h
    cases sense
    · exact ⟨_, _, _, _, _, _, rfl, by rw [word_bytes, word_bytes]; exact if_pos hband⟩
    · exact ⟨_, _, _, _, _, _, rfl, by rw [word_bytes, word_bytes]; exact if_pos hband⟩

theorem readEntryConfig_entryConfigBytes {c : EntryConfig} (h : c.inRange) : readEntryConfig (entryConfigBytes c) = some c := by
  obtain ⟨hstation, htest, hone, hfifteen⟩ := h
  obtain ⟨kind, h1, l1, h2, l2, sense, hbytes, hread⟩ := testBytes_readTest c.test htest
  obtain ⟨hflags, hreturn, hinitial, hurgent, hcarry⟩ := flagByte_bits c
  have hconfirm : (byteOf c.confirm).toNat = c.confirm := byteOf_toNat (by omega)
  have hkey : readPointKey (byteOf c.key.station.val) (byteOf c.key.point.val) = some c.key := by
    simp only [readPointKey, readStation_byteOf hstation, readPoint_byteOf]
  simp only [entryConfigBytes, pointKeyBytes, hbytes, List.cons_append, List.nil_append, readEntryConfig, hkey, hread,
    readClass_byteOf, readForwardPolicy_code, hconfirm, hone, hfifteen, hflags, and_self, if_true, hreturn, hinitial, hurgent,
    hcarry]

theorem readClassSetting_bytes (c : ReportClass) {x : ClassSetting} (h : x.inRange) :
    readClassSetting [byteOf c.val, byteOf x.rank.val, boolByte x.enabled, byteOf x.creditLimit, byteOf x.period] = some (c, x) := by
  obtain ⟨hone, hlimit, hperiod⟩ := h
  have hcredit : (byteOf x.creditLimit).toNat = x.creditLimit := byteOf_toNat (by omega)
  have hrefill : (byteOf x.period).toNat = x.period := byteOf_toNat (by omega)
  simp only [readClassSetting, readClass_byteOf, readFlag_boolByte, hcredit, hrefill, hone, hlimit, and_self, if_true]

theorem readModuleListing_bytes {m : Station} {limit : Nat} (cls : ReportClass) (hm : 1 ≤ m.val) (hten : 10 ≤ limit)
    (hmax : limit ≤ 2550) (hstep : limit % 10 = 0) :
    readModuleListing (byteOf m.val :: twoBytes limit ++ [byteOf cls.val]) = some (m, limit, cls) := by
  obtain ⟨high, low, hbytes, hword⟩ := twoBytes_eq (n := limit) (by omega)
  simp only [hbytes, List.cons_append, List.nil_append, readModuleListing, readStation_byteOf hm, readClass_byteOf, hword, hten,
    hmax, hstep, and_self, if_true]

/-- Settles O50. -/
theorem layoutsReadBack : Obligations.LayoutsReadBack :=
  ⟨fun _ h => readEntryConfig_entryConfigBytes h,
    fun _ _ hpos hone height => readPointPayload_some_iff.mpr ⟨hpos, hone, height, rfl⟩,
    fun c _ h => readClassSetting_bytes c h,
    fun _ _ cls hm hten hmax hstep => readModuleListing_bytes cls hm hten hmax hstep⟩

/-! ## The receive checks (R134) -/

theorem readBody_some_iff {onFPort : Bool} {src : Node} {k : Byte} {payload : List Byte} {body : FrameBody} :
    readBody onFPort src k payload = some body ↔
      (k = 1 ∧ ∃ (origin : Station) (items : List Item),
          1 ≤ origin.val ∧ 1 ≤ items.length ∧ items.length ≤ 8 ∧ (onFPort = true → origin.val = src.toNat) ∧
            payload = pointPayload origin items ∧ body = .point origin items) ∨
        (k = 3 ∧ ∃ high low : Byte, payload = [high, low] ∧ body = .scanMark (word high low)) ∨
        (k = 4 ∧ body = .mgmtReq payload) ∨ ((k = 2 ∨ k = 5 ∨ k = 6 ∨ k = 7) ∧ body = .unread) := by
  constructor
  · intro h
    unfold readBody at h
    split at h
    case h_1 hk =>
      left
      refine ⟨byteOf_eq_of_toNat hk, ?_⟩
      split at h
      · next origin items hpayload =>
        split at h
        · cases h
        · next horigin =>
          cases h
          obtain ⟨hpos, hone, height, hbytes⟩ := readPointPayload_some_iff.mp hpayload
          exact ⟨origin, items, hpos, hone, height, fun hport => by simpa [hport] using horigin, hbytes, rfl⟩
      · cases h
    case h_2 hk =>
      right; left
      refine ⟨byteOf_eq_of_toNat hk, ?_⟩
      split at h
      · next high low => cases h; exact ⟨high, low, rfl, rfl⟩
      · cases h
    case h_3 hk => cases h; exact .inr (.inr (.inl ⟨byteOf_eq_of_toNat hk, rfl⟩))
    case h_4 hk => cases h; exact .inr (.inr (.inr ⟨.inl (byteOf_eq_of_toNat hk), rfl⟩))
    case h_5 hk => cases h; exact .inr (.inr (.inr ⟨.inr (.inl (byteOf_eq_of_toNat hk)), rfl⟩))
    case h_6 hk => cases h; exact .inr (.inr (.inr ⟨.inr (.inr (.inl (byteOf_eq_of_toNat hk))), rfl⟩))
    case h_7 hk => cases h; exact .inr (.inr (.inr ⟨.inr (.inr (.inr (byteOf_eq_of_toNat hk))), rfl⟩))
    case h_8 => cases h
  · rintro (⟨rfl, origin, items, hpos, hone, height, hport, hbytes, rfl⟩ | ⟨rfl, high, low, rfl, rfl⟩ | ⟨rfl, rfl⟩ |
      ⟨rfl | rfl | rfl | rfl, rfl⟩)
    · have hpayload := readPointPayload_some_iff.mpr ⟨hpos, hone, height, hbytes⟩
      show (match readPointPayload payload with
        | some (origin, items) => if onFPort && origin.val != src.toNat then none else some (FrameBody.point origin items)
        | none => none) = _
      rw [hpayload]
      exact if_neg (by simpa using hport)
    all_goals rfl

theorem setWidth_source {s : Byte} (h : s.toNat ≤ 126) : (s.setWidth 7).toNat = s.toNat := by
  rw [BitVec.toNat_setWidth]; omega

/-- What passes the receive checks, as header, payload, CRC and body (R134, R185). -/
theorem receive_some_iff {onFPort : Bool} {bytes : List Byte} {f : LinkFrame} :
    receive onFPort bytes = some f ↔
      ∃ (d s k q n : Byte) (payload : List Byte),
        bytes = d :: s :: k :: q :: n :: (payload ++ wordBytes (crc (d :: s :: k :: q :: n :: payload))) ∧
          n.toNat = payload.length ∧ payload.length ≤ 240 ∧ 1 ≤ s.toNat ∧ s.toNat ≤ 126 ∧ f.dest = d.setWidth 7 ∧
          f.src = s.setWidth 7 ∧ readBody onFPort (s.setWidth 7) k payload = some f.body := by
  constructor
  · intro h
    unfold receive at h
    split at h
    · next d s k q n rest =>
      split at h
      · next hchecks =>
        obtain ⟨hmax, hlength, hone, hsource, hcrc⟩ := hchecks
        split at h
        · next body hbody =>
          cases h
          have htake : (rest.take n.toNat).length = n.toNat := by rw [List.length_take]; omega
          refine ⟨d, s, k, q, n, rest.take n.toNat, ?_, htake.symm, by omega, hone, hsource, rfl, rfl, hbody⟩
          rw [← hcrc, List.take_append_drop]
        · cases h
      · cases h
    · cases h
  · rintro ⟨d, s, k, q, n, payload, rfl, hlength, hmax, hone, hsource, hdest, hsrc, hbody⟩
    have htake : (payload ++ wordBytes (crc (d :: s :: k :: q :: n :: payload))).take n.toNat = payload := by
      rw [hlength, List.take_left]
    have hdrop : (payload ++ wordBytes (crc (d :: s :: k :: q :: n :: payload))).drop n.toNat =
        wordBytes (crc (d :: s :: k :: q :: n :: payload)) := by rw [hlength, List.drop_left]
    have hsize : (payload ++ wordBytes (crc (d :: s :: k :: q :: n :: payload))).length = n.toNat + 2 := by
      rw [List.length_append, hlength]; rfl
    have hn : n.toNat ≤ 240 := hlength ▸ hmax
    obtain ⟨dest, src, body⟩ := f
    obtain rfl : dest = d.setWidth 7 := hdest
    obtain rfl : src = s.setWidth 7 := hsrc
    simp only [receive, htake, hdrop, hsize, hn, hone, hsource, and_self, if_true, hbody]

/-- The payload of a POINT frame, byte by byte (R185). -/
theorem pointPayload_bytes (origin : Station) (items : List Item) :
    pointPayload origin items =
      BitVec.ofNat 8 origin.val :: BitVec.ofNat 8 items.length ::
        items.flatMap (fun i =>
          [BitVec.ofNat 8 i.point.val, if i.quality = .good then 0 else 1, i.value.extractLsb' 8 8, i.value.extractLsb' 0 8]) := by
  have hitem : itemBytes = fun i =>
      [BitVec.ofNat 8 i.point.val, if i.quality = .good then 0 else 1, i.value.extractLsb' 8 8, i.value.extractLsb' 0 8] := by
    funext i
    simp only [itemBytes]
    cases i.quality <;> rfl
  rw [pointPayload, hitem]; rfl

theorem crc_snoc (bytes : List Byte) (b : Byte) : crc (bytes ++ [b]) = crcBit^[8] (crc bytes ^^^ (b ++ 0#8)) := by
  rw [crc, crcFrom, List.foldl_append]; rfl

/-! ## The part's own frames -/

theorem nodeByte_setWidth (n : Node) : (nodeByte n).setWidth 7 = n := by
  apply BitVec.eq_of_toNat_eq
  rw [nodeByte, BitVec.toNat_setWidth, BitVec.toNat_setWidth]
  have := n.isLt; omega

theorem nodeByte_toNat (n : Node) : (nodeByte n).toNat = n.toNat := by
  rw [nodeByte, BitVec.toNat_setWidth]
  have := n.isLt; omega

/-- A frame of the part passes the T-port's checks with whatever body its kind and payload read as. -/
theorem receive_frameBytes {dest src : Node} {kind : OwnKind} {sequence : Byte} {payload : List Byte} {body : FrameBody}
    (hone : 1 ≤ src.toNat) (hsource : src.toNat ≤ 126) (hmax : payload.length ≤ 240)
    (hbody : readBody false src kind.code payload = some body) :
    receive false (frameBytes dest src kind sequence payload) = some ⟨dest, src, body⟩ := by
  refine receive_some_iff.mpr ⟨nodeByte dest, nodeByte src, kind.code, sequence, byteOf payload.length, payload, rfl,
    byteOf_toNat (by omega), hmax, ?_, ?_, (nodeByte_setWidth dest).symm, (nodeByte_setWidth src).symm, ?_⟩
  · rwa [nodeByte_toNat]
  · rwa [nodeByte_toNat]
  · rwa [nodeByte_setWidth]

theorem pointPayload_length (origin : Station) (items : List Item) : (pointPayload origin items).length = 4 * items.length + 2 := by
  have hitems : (items.flatMap itemBytes).length = 4 * items.length := by
    induction items with
    | nil => rfl
    | cons i items ih => rw [List.flatMap_cons, List.length_append, ih, List.length_cons]; simp [itemBytes, wordBytes]; omega
  rw [pointPayload, List.length_cons, List.length_cons, hitems]

/-- Settles O51. -/
theorem ownFramesPassTheChecks : Obligations.OwnFramesPassTheChecks := by
  refine ⟨fun onFPort bytes f => ?_, ⟨rfl, crc_snoc⟩, fun dest src sequence hone hsource => ⟨?_, ?_⟩⟩
  · rw [receive_some_iff]
    simp only [readBody_some_iff, ← pointPayload_bytes]
    refine exists_congr fun d => exists_congr fun s => exists_congr fun k => exists_congr fun q => exists_congr fun n =>
      exists_congr fun payload => ?_
    constructor
    · rintro ⟨hbytes, hlength, hmax, hpos, hsource, hdest, hsrc, hbody⟩
      rw [setWidth_source hsource] at hbody
      exact ⟨hbytes, hlength, hmax, hpos, hsource, hdest, hsrc, hbody⟩
    · rintro ⟨hbytes, hlength, hmax, hpos, hsource, hdest, hsrc, hbody⟩
      refine ⟨hbytes, hlength, hmax, hpos, hsource, hdest, hsrc, ?_⟩
      rw [setWidth_source hsource]
      exact hbody
  · intro kind payload hkind hmax
    refine receive_frameBytes hone hsource hmax (readBody_some_iff.mpr (.inr (.inr (.inr ⟨?_, rfl⟩))))
    cases kind with
    | point => exact absurd rfl hkind
    | report => exact .inl rfl
    | mgmtRsp => exact .inr (.inl rfl)
    | hail => exact .inr (.inr (.inl rfl))
  · intro origin items hpos hcount height
    refine receive_frameBytes hone hsource (by rw [pointPayload_length]; omega) (readBody_some_iff.mpr (.inl ⟨rfl, ?_⟩))
    exact ⟨origin, items, hpos, hcount, height, fun h => absurd h (by decide), rfl, rfl⟩

end Sys2Proof.Machine
end

section
/-!
PROOFS. Frames on the T-port (R138 to R140, R144), and how a request is judged (R139, R153, R154, R159, R162).
-/

namespace Sys2Proof.Machine

set_option Elab.async false

/-! ## Routing on the T-port -/

theorem offerDown_eq (s : State) (bytes : List Byte) :
    s.offerDown bytes =
      if s.ports.down.length < 8 then { s with ports := { s.ports with down := s.ports.down ++ [bytes] } }
      else if s.start.part = .held ∨ s.start.part = .running then
        { s with
          queue := s.queue.add s.emitter.classes ⟨headReport .downlinkFull s.start.settings.headClass s.sweep.cycle, false⟩ }
      else s := by
  simp only [State.offerDown, started_iff, Config.fifoCapacity]
  rfl

section
variable {s : State} {pins : Pins} {bytes : List Byte} {dest src : Node} {body : FrameBody}

/-- The own node takes MGMT-REQ frames only. -/
theorem routeTrunk_own_of_not_request (hbody : ∀ payload, body ≠ .mgmtReq payload) :
    s.routeTrunk pins bytes ⟨s.start.ownNode, src, body⟩ = s.tRefuse := by
  rw [State.routeTrunk, if_pos rfl]
  cases body with
  | mgmtReq payload => exact absurd rfl (hbody payload)
  | point | scanMark | unread => rfl

theorem routeTrunk_scanMark_of_not_broadcast {n : Word} (hown : dest ≠ s.start.ownNode) (hdest : dest ≠ 127) :
    s.routeTrunk pins bytes ⟨dest, src, .scanMark n⟩ = s.tRefuse := by
  rw [State.routeTrunk, if_neg hown]
  exact if_neg (by bv_omega)

/-- A frame that is no SCAN-MARK and not for the own node (R138). -/
theorem routeTrunk_other (hown : dest ≠ s.start.ownNode) (hbody : ∀ n, body ≠ .scanMark n) :
    s.routeTrunk pins bytes ⟨dest, src, body⟩ =
      if dest = 0 then s.tRefuse else if dest.toNat ≤ 63 ∨ dest = 127 then s.offerDown bytes else s := by
  have hzero : dest.toNat = 0 ↔ dest = 0 := by bv_omega
  have hall : dest.toNat = 127 ↔ dest = 127 := by bv_omega
  rw [State.routeTrunk, if_neg hown]
  cases body with
  | scanMark n => exact absurd rfl (hbody n)
  | point | mgmtReq | unread => simp only [hzero, hall]

end

/-- Settles O22, line by line of the table. -/
theorem tPortRouting : Obligations.TPortRouting := by
  intro s bytes pins hreset hrequest hmark
  cases hframe : receive false bytes with
  | none => exact exec_tPortFrame_bad hreset hframe
  | some f =>
    obtain ⟨dest, src, body⟩ := f
    rw [exec_tPortFrame_good hreset hframe]
    refine congrArg Host.Outcome.next ?_
    dsimp only
    by_cases hown : dest = s.start.ownNode
    · subst hown
      rw [if_pos rfl]
      exact routeTrunk_own_of_not_request fun payload h => hrequest src payload (by rw [hframe, h])
    · rw [if_neg hown]
      cases body with
      | scanMark n => exact routeTrunk_scanMark_of_not_broadcast hown fun h => hmark src n (by rw [hframe, h])
      | point | mgmtReq | unread =>
        rw [routeTrunk_other hown (by simp), offerDown_eq]
        rfl

/-! ## A broadcast SCAN-MARK -/

/-- The Sweep Generator once a SCAN-MARK has been taken, by part state (R114, R116, R140). -/
def State.marked (s : State) (n : Word) : SweepGenerator :=
  if s.start.part = .scrub then s.sweep
  else
    match s.sweep.arm with
    | some a =>
      if a.cycle = n then
        if s.start.part = .running ∧ s.sweep.state = .idle ∧ s.mgmt.owner ≠ none then
          { s.sweep with
            cycle := some n, arm := none
            state := .active, scope := some a.scope, cursor := none, number := s.sweep.number + 1, count := 0 }
        else { s.sweep with cycle := some n, arm := none, triggerRefused := true }
      else { s.sweep with cycle := some n }
    | none => { s.sweep with cycle := some n }

theorem mark_eq (g : SweepGenerator) (running : Bool) (owner : Option Node) (n : Word) :
    g.mark running owner n =
      match g.arm with
      | some a =>
        if a.cycle = n then
          if running = true ∧ g.state = .idle ∧ owner ≠ none then
            { g with
              cycle := some n, arm := none
              state := .active, scope := some a.scope, cursor := none, number := g.number + 1, count := 0 }
          else { g with cycle := some n, arm := none, triggerRefused := true }
        else { g with cycle := some n }
      | none => { g with cycle := some n } := by
  have howner : owner.isSome = true ↔ owner ≠ none := Option.isSome_iff_ne_none
  simp only [SweepGenerator.mark, SweepGenerator.trigger, howner]
  cases g.arm <;> rfl

theorem takeMark_eq (s : State) (n : Word) : s.takeMark n = { s with sweep := s.marked n } := by
  cases hpart : s.start.part <;>
    simp only [State.takeMark, State.marked, hpart, State.isRunning, mark_eq, if_true, if_false, reduceCtorEq, decide_true,
      decide_false, Bool.false_eq_true, State.withSweep]

theorem marked_cycle {s : State} (h : s.start.part ≠ .scrub) (n : Word) : (s.marked n).cycle = some n := by
  rw [State.marked, if_neg h]
  cases s.sweep.arm with
  | none => rfl
  | some a => dsimp only; split_ifs <;> rfl

theorem routeTrunk_broadcast {s : State} {pins : Pins} {bytes : List Byte} {src : Node} {n : Word} (hown : s.start.ownNode ≠ 127) :
    s.routeTrunk pins bytes ⟨127, src, .scanMark n⟩ = s.scanMark bytes n := by
  rw [State.routeTrunk, if_neg hown.symm]; rfl

/-- The report of a full Down FIFO carries the cycle of before or after the mark (R114; log 13). -/
theorem overflowCycle_cases {s : State} (h : s.start.part ≠ .scrub) (n : Word) :
    s.overflowCycle (s.takeMark n) = s.sweep.cycle ∨ s.overflowCycle (s.takeMark n) = some n := by
  rw [State.overflowCycle]
  split
  · right; rw [takeMark_eq]; exact marked_cycle h n
  · exact .inl rfl

theorem scanMark_room {s : State} {bytes : List Byte} (n : Word) (h : s.ports.down.length < 8) :
    s.scanMark bytes n = { s with sweep := s.marked n, ports := { s.ports with down := s.ports.down ++ [bytes] } } := by
  rw [State.scanMark, if_pos (.inl h), takeMark_eq, State.offerDown, if_pos h]; rfl

/-- A full Down FIFO outside HELD and RUNNING: the copy is discarded, nothing is raised. -/
theorem scanMark_full_unstarted {s : State} {bytes : List Byte} (n : Word) (h : 8 ≤ s.ports.down.length)
    (hstarted : s.started = false) : s.scanMark bytes n = { s with sweep := s.marked n } := by
  have hunstarted : ¬(s.takeMark n).started = true := by rw [takeMark_eq]; exact Bool.eq_false_iff.mp hstarted
  rw [State.scanMark, if_pos (.inr hstarted), State.offerDown, if_neg (by rw [State.takeMark_ports]; exact h.not_gt),
    if_neg hunstarted, takeMark_eq]

theorem scanMark_full_started {s : State} {bytes : List Byte} (n : Word) (h : 8 ≤ s.ports.down.length)
    (hstarted : s.started = true) :
    s.scanMark bytes n =
      { s with
        sweep := s.marked n
        queue :=
          s.queue.add s.emitter.classes
            ⟨headReport .downlinkFull s.start.settings.headClass (s.overflowCycle (s.takeMark n)), false⟩
        freeCount := s.freeCount + 1 } := by
  rw [State.scanMark, if_neg (by rw [not_or]; exact ⟨h.not_gt, by simp [hstarted]⟩)]
  simp only [State.withFreeCount, State.raise, State.withQueue, takeMark_eq]
  rfl

/-- Settles O23, by the room in the Down FIFO and the part state. -/
theorem scanMarkTaken : Obligations.ScanMarkTaken := by
  intro s bytes pins src n hreset hframe hown
  have hexec : exec (.tPortFrameReceived bytes pins) s = .next (s.scanMark bytes n) := by
    rw [exec_tPortFrame_good hreset hframe, routeTrunk_broadcast hown]
  refine ⟨fun hroom => ?_, fun hfull => ?_⟩
  · rw [hexec, scanMark_room n hroom]; rfl
  · cases hstarted : s.started with
    | false =>
      have hpart := (not_started_iff s).mp hstarted
      refine ⟨s.queue, s.freeCount, ?_, fun _ => rfl, fun hheld => ?_⟩
      · rw [hexec, scanMark_full_unstarted n hfull hstarted]; rfl
      · rcases hpart with h | h <;> simp [h] at hheld
    | true =>
      have hpart := (started_iff s).mp hstarted
      have hscrub : s.start.part ≠ .scrub := by rcases hpart with h | h <;> simp [h]
      refine ⟨_, s.freeCount + 1, ?_, fun hloading => ?_, fun _ => ⟨_, overflowCycle_cases hscrub n, rfl⟩⟩
      · rw [hexec, scanMark_full_started n hfull hstarted]; rfl
      · rcases hpart with h | h <;> simp [h] at hloading

/-! ## A request frame -/

/-- A good MGMT-REQ frame spells a source and a length that pass the checks of a request (R133, R134). -/
theorem requestOk_of_receive {bytes payload : List Byte} {dest src : Node}
    (h : receive false bytes = some ⟨dest, src, .mgmtReq payload⟩) : requestOk src (payload.drop 2) = true := by
  obtain ⟨d, s, k, q, n, content, -, -, hmax, hone, hsource, -, hsrc, hbody⟩ := receive_some_iff.mp h
  have hpayload : payload = content := by
    rcases readBody_some_iff.mp hbody with ⟨-, _, _, -, -, -, -, -, hb⟩ | ⟨-, _, _, -, hb⟩ | ⟨-, hb⟩ | ⟨-, hb⟩ <;> cases hb
    rfl
  obtain rfl : src = s.setWidth 7 := hsrc
  have hnode := setWidth_source hsource
  subst hpayload
  simp only [requestOk, validSource, hnode, List.length_drop, Bool.and_eq_true, decide_eq_true_eq]
  exact ⟨⟨hone, hsource⟩, by omega⟩

/-- A request that passes the checks is handed to the Management Unit. -/
theorem request_handed {src : Node} {tag name : Byte} {params : List Byte} {known : Option RequestName}
    {rule : State → Request → Act} {s : State} (hreset : s.start.resetHeld = false) (hok : requestOk src params = true) :
    request src tag name params known rule s = .next (s.handRequest ⟨src, tag, name, params⟩ known rule) := by
  have hchecks : (validSource src && decide (params.length + 2 ≤ 240)) = true := hok
  rw [request, whenReleased_released hreset, if_pos hchecks]

theorem handRequest_room {s : State} {q : Request} {known : Option RequestName} {rule : State → Request → Act}
    (h : s.requestResponses < 4) : s.handRequest q known rule = s.takeRequest q known rule := if_pos h

theorem handRequest_full {s : State} {q : Request} {known : Option RequestName} {rule : State → Request → Act}
    (h : 4 ≤ s.requestResponses) : s.handRequest q known rule = s.tRefuse := if_neg h.not_gt

theorem exec_requestFrame {s : State} {bytes payload : List Byte} {pins : Pins} {src : Node} (hreset : s.start.resetHeld = false)
    (hframe : receive false bytes = some ⟨s.start.ownNode, src, .mgmtReq payload⟩) :
    exec (.tPortFrameReceived bytes pins) s = .next (s.requestFrame pins (readRequest src payload)) := by
  rw [exec_tPortFrame_good hreset hframe, State.routeTrunk, if_pos rfl]

theorem ofByte_of_not_inCatalogue {b : Byte} (h : inCatalogue b = false) : RequestName.ofByte b = none := by
  have hrange : b.toNat < 1 ∨ 23 < b.toNat := by
    simp only [inCatalogue, Bool.and_eq_false_iff, decide_eq_false_iff_not] at h; omega
  unfold RequestName.ofByte
  split
  case h_24 => rfl
  all_goals omega

/-- The name byte of a well-formed request command names its request. -/
theorem ofByte_commandName {c : Instr} {q : Request} (hq : commandRequest c = some q) (hw : c.wellFormed = true) :
    RequestName.ofByte q.name = commandName c := by
  cases c <;> simp only [commandRequest, Option.some.injEq, reduceCtorEq] at hq <;> subst hq
  case unknownRequest =>
    simp only [Instr.wellFormed, Bool.and_eq_true, Bool.not_eq_true'] at hw
    exact ofByte_of_not_inCatalogue hw.2
  all_goals rfl

/-- The rule under a request command's name does at its request what the command's own rule does; a COLD restart samples the pins of
the frame's arrival. -/
theorem ruleOf_commandRule {c : Instr} {q : Request} {n : RequestName} (hq : commandRequest c = some q) (hn : commandName c = some n)
    {pins : Pins} (hpins : ∀ src tag p, c = .coldRestart src tag p → p = pins) (s : State) :
    ruleOf pins n s q = commandRule c s q := by
  cases c <;> simp only [commandName, Option.some.injEq, reduceCtorEq] at hn <;> subst hn
  case coldRestart src tag p =>
    obtain rfl := hpins src tag p rfl
    simp only [commandRequest, Option.some.injEq] at hq
    subst hq; rfl
  case warmRestart =>
    simp only [commandRequest, Option.some.injEq] at hq
    subst hq; rfl
  all_goals rfl

/-- A frame whose payload reads as a command's request acts as the command (R138, R151). -/
theorem exec_frame_eq_command {s : State} {bytes payload : List Byte} {pins : Pins} {c : Instr} {q : Request}
    (hq : commandRequest c = some q) (hw : c.wellFormed = true) (hpins : ∀ src tag p, c = .coldRestart src tag p → p = pins)
    (hread : readRequest q.src payload = q) (hframe : receive false bytes = some ⟨s.start.ownNode, q.src, .mgmtReq payload⟩) :
    exec (.tPortFrameReceived bytes pins) s = exec c s := by
  cases hreset : s.start.resetHeld with
  | true =>
    rw [exec_held hreset (by simp) (by simp), exec_request hq, request_held hreset]
  | false =>
    rw [exec_requestFrame hreset hframe, hread, exec_request hq, request_handed hreset (requestOk_of_wellFormed hq hw),
      State.requestFrame, ofByte_commandName hq hw]
    simp only [State.handRequest]
    rw [takeRequest_congr (g := commandRule c)]
    intro t
    rw [ofByte_commandName hq hw]
    cases hn : commandName c with
    | some n => exact ruleOf_commandRule hq hn hpins t
    | none =>
      cases c <;> simp only [commandName, reduceCtorEq] at hn <;> simp only [commandRequest, reduceCtorEq] at hq
      rfl

/-- Where a RESTART is not carried out, only its source, tag and name matter. -/
theorem takeRequest_not_carriedOut {s : State} {q r : Request} {n : RequestName} {f g : State → Request → Act}
    (hopen : n.isOpen = false) (hsrc : q.src = r.src) (htag : q.tag = r.tag) (hname : q.name = r.name)
    (h : ¬(s.started = true ∧ s.mgmt.owner = some q.src ∧ s.mgmt.cached q.tag = none)) :
    s.takeRequest q (some n) f = s.takeRequest r (some n) g := by
  obtain ⟨src, tag, name, params⟩ := q
  obtain ⟨src', tag', name', params'⟩ := r
  dsimp only at hsrc htag hname h
  subst hsrc htag hname
  cases hstarted : s.started with
  | false => rw [takeRequest_notReady hstarted, takeRequest_notReady hstarted]; rfl
  | true =>
    by_cases howner : s.mgmt.owner = some src
    · rw [takeRequest_ofOwner hstarted howner, takeRequest_ofOwner hstarted howner]
      cases hcached : s.mgmt.cached tag with
      | none => exact absurd ⟨hstarted, howner, hcached⟩ h
      | some content => cases content <;> rfl
    · rw [takeRequest_other hstarted howner, takeRequest_other hstarted howner]
      simp only [State.judge, howner, hopen, ne_eq, not_false_eq_true, and_self, if_true]
      rw [respond_other _ _ howner, respond_other _ _ howner]

theorem restartRule_badLevel {s : State} {pins : Pins} {q : Request} (hwarm : q.params ≠ [1]) (hcold : q.params ≠ [2]) :
    restartRule pins s q = .answer s .badRequest .none := by
  unfold restartRule
  split
  · next b hb =>
    split
    · next h => exact absurd (by rw [hb, byteOf_eq_of_toNat h]; rfl) hwarm
    · next h => exact absurd (by rw [hb, byteOf_eq_of_toNat h]; rfl) hcold
    · rfl
  · rfl

theorem endDeaf_eq_ite (s : State) :
    s.endDeaf =
      if s.emitter.link = .deaf then
        { s with
          emitter :=
            { s.emitter with
              link := .normal, hailTimer := .stopped, hailPending := false
              outstanding := s.emitter.outstanding.map fun o => { o with retry := 0, transmit := .flagged } }
          start := { s.start with alert := s.start.startAlert } }
      else s := by
  cases hlink : s.emitter.link with
  | normal => rw [endDeaf_normal hlink]; rfl
  | deaf => rw [endDeaf_deaf hlink]; rfl

/-- Settles O24: the frame of a command, the RESTART of a level that is none, and the two short payloads. -/
theorem requestFrameIsItsCommand : Obligations.RequestFrameIsItsCommand := by
  intro s bytes pins
  refine ⟨fun c q hq hw hpins hframe => exec_frame_eq_command hq hw hpins rfl hframe,
    fun src tag params hwarm hcold hframe => ⟨fun htakes howner htag => ?_, fun hnot => ?_⟩,
    fun src => ⟨fun hframe => ?_, fun tag hframe => ?_⟩⟩
  · obtain ⟨hreset, hstarted, hroom, hok⟩ := htakes
    have hexec : exec (.tPortFrameReceived bytes pins) s =
        .next (s.takeRequest ⟨src, tag, 23, params⟩ (some .restart) (restartRule pins)) := by
      rw [exec_requestFrame hreset hframe]
      exact congrArg _ (handRequest_room hroom)
    have howner' : s.endDeaf.mgmt.owner = some src := by rw [State.endDeaf_mgmt, howner]
    rw [hexec, takeRequest_ofOwner hstarted howner, htag]
    dsimp only
    rw [judge_rule (.inl howner') (.inr rfl), restartRule_badLevel hwarm hcold, Act.apply, respond_owner _ _ howner', endDeaf_eq_ite]
  · have hok : requestOk src params = true := requestOk_of_receive hframe
    have hok' : requestOk src [1] = true := by
      simp only [requestOk, Bool.and_eq_true] at hok ⊢
      exact ⟨hok.1, rfl⟩
    cases hreset : s.start.resetHeld with
    | true => rw [exec_held hreset (by simp) (by simp), exec_held hreset (by simp) (by simp)]
    | false =>
      have hcommand : exec (.warmRestart src tag) s = .next (s.handRequest ⟨src, tag, 23, [1]⟩ (some .restart) warmRule) :=
        request_handed hreset hok'
      rw [exec_requestFrame hreset hframe, hcommand]
      refine congrArg Host.Outcome.next ?_
      by_cases hroom : s.requestResponses < 4
      · rw [State.requestFrame, handRequest_room hroom, handRequest_room hroom]
        exact takeRequest_not_carriedOut rfl rfl rfl rfl fun ⟨hstarted, howner, htag⟩ =>
          hnot ⟨⟨hreset, hstarted, hroom, hok⟩, howner, htag⟩
      · rw [State.requestFrame, handRequest_full (not_lt.mp hroom), handRequest_full (not_lt.mp hroom)]
  · refine exec_frame_eq_command (c := .unknownRequest src 0 0 []) rfl ?_ (by simp) rfl hframe
    exact Bool.and_eq_true_iff.mpr ⟨requestOk_of_receive hframe, rfl⟩
  · refine exec_frame_eq_command (c := .unknownRequest src tag 0 []) rfl ?_ (by simp) rfl hframe
    exact Bool.and_eq_true_iff.mpr ⟨requestOk_of_receive hframe, rfl⟩

/-! ## How a request is judged -/

theorem exec_request_taken {c : Instr} {q : Request} {s : State} (hq : commandRequest c = some q) (htakes : s.takes q.src q.params) :
    exec c s = .next (s.takeRequest q (commandName c) (commandRule c)) := by
  rw [exec_request hq, request_taken htakes]

theorem cached_of_cache {m : ManagementUnit} {tag : Byte} {content : CacheContent} (h : m.cache = some ⟨tag, content⟩) :
    m.cached tag = some content := by
  simp only [ManagementUnit.cached, h, if_true]

/-- Settles O25. -/
theorem requestsNotJudged : Obligations.RequestsNotJudged := by
  refine ⟨fun s c q hq hw hreset => ⟨fun hfull => ?_, fun hroom hpart => ?_⟩, fun s c q content hq htakes howner hlink hcache => ?_⟩
  · rw [exec_request hq, request_refused hreset (requestOk_of_wellFormed hq hw) hfull]; rfl
  · have hstarted := (not_started_iff s).mpr hpart
    rw [exec_request hq, request_handed hreset (requestOk_of_wellFormed hq hw), handRequest_room hroom,
      takeRequest_notReady hstarted]
    rfl
  · have ⟨_, hstarted, _⟩ := htakes
    rw [exec_request_taken hq htakes, takeRequest_ofOwner hstarted howner, cached_of_cache hcache, endDeaf_normal hlink]
    cases content <;> rfl

/-- Settles O26: once DEAF has ended, ending it again changes nothing. -/
theorem ownerRequestEndsDeaf : Obligations.OwnerRequestEndsDeaf := by
  intro s c q hq htakes howner hdeaf
  rw [← endDeaf_deaf hdeaf]
  have ⟨hreset, hstarted, hroom, hok⟩ := htakes
  have hreset' : s.endDeaf.start.resetHeld = false := by rw [endDeaf_deaf hdeaf]; exact hreset
  have hstarted' : s.endDeaf.started = true := by rwa [endDeaf_started]
  have hroom' : s.endDeaf.requestResponses < Config.responseCapacity := by rwa [endDeaf_requestResponses]
  have howner' : s.endDeaf.mgmt.owner = some q.src := by rwa [State.endDeaf_mgmt]
  rw [exec_request_taken hq htakes, exec_request_taken hq ⟨hreset', hstarted', hroom', hok⟩, takeRequest_ofOwner hstarted howner,
    takeRequest_ofOwner hstarted' howner', endDeaf_normal (endDeaf_link s), State.endDeaf_mgmt]

theorem not_takenWhileBusy {n : RequestName}
    (h : n ∉ [RequestName.queryStatus, .readEntry, .readModule, .ack, .claim, .restart]) : n.takenWhileBusy = false := by
  revert h; cases n <;> decide

/-- Settles O27: steps 3, 4 and 5 for another node and for the owner. -/
theorem requestsJudgedInOrder : Obligations.RequestsJudgedInOrder := by
  intro s c q hq htakes
  have ⟨_, hstarted, _⟩ := htakes
  refine ⟨fun hother => ⟨fun hname => ?_, fun n hname hopen => ?_⟩,
    fun howner hlink htag => ⟨fun hname => ?_, fun n hname hbusy hn => ?_⟩⟩
  · rw [exec_request_taken hq htakes, takeRequest_other hstarted hother, hname, State.judge, respond_other _ _ hother]
  · rw [exec_request_taken hq htakes, takeRequest_other hstarted hother, hname, State.judge, if_pos ⟨hother, hopen⟩,
      respond_other _ _ hother]
  · rw [exec_request_taken hq htakes, takeRequest_owner hstarted howner hlink htag, hname, State.judge, respond_owner _ _ howner]
  · rw [exec_request_taken hq htakes, takeRequest_owner hstarted howner hlink htag, hname, State.judge,
      if_neg fun h => h.1 howner, if_pos ⟨hbusy, not_takenWhileBusy hn⟩, respond_owner _ _ howner]

/-! ## Another node than the owner (R159) -/

/-- What a request of another node may change. -/
abbrev State.onlyAnswers (s t : State) : Prop :=
  ∃ responses tErrors tRefused freeCount,
    t =
      { s with
        ports := { s.ports with responses := responses, tErrors := tErrors, tRefused := tRefused }
        freeCount := freeCount }

theorem onlyAnswers_self (s : State) : s.onlyAnswers s :=
  ⟨s.ports.responses, s.ports.tErrors, s.ports.tRefused, s.freeCount, rfl⟩

theorem onlyAnswers_replied (s : State) (n : Nat) (r : Response) : s.onlyAnswers ((s.withFreeCount n).replied r) :=
  ⟨s.ports.responses ++ [r], s.ports.tErrors, s.ports.tRefused, n, rfl⟩

theorem onlyAnswers_respond {s : State} {q : Request} (hother : s.mgmt.owner ≠ some q.src) (n : Nat) (st : Status) (r : Results) :
    s.onlyAnswers ((s.withFreeCount n).respond q st r) := by
  rw [respond_other (s := s.withFreeCount n) st r hother]
  exact onlyAnswers_replied ..

/-- The three reads answer, whatever they find, and count free values at most. -/
theorem read_answers {c : Instr} {n : RequestName} (hn : commandName c = some n) (hopen : n.isOpen = true)
    (hclaim : n ≠ .claim) (s : State) (q : Request) : ∃ k st r, commandRule c s q = .answer (s.withFreeCount k) st r := by
  have hsame : s.withFreeCount s.freeCount = s := rfl
  cases c <;> simp only [commandName, Option.some.injEq, reduceCtorEq] at hn <;> subst hn <;>
    simp only [RequestName.isOpen, ne_eq, not_true_eq_false, reduceCtorEq] at hopen hclaim
  case queryStatus =>
    simp only [commandRule, queryStatusRule]
    split
    · exact ⟨_, _, _, rfl⟩
    · exact ⟨s.freeCount, _, _, rfl⟩
  case readEntry =>
    simp only [commandRule, readEntryRule]
    repeat' split
    all_goals exact ⟨s.freeCount, _, _, rfl⟩
  case readModule =>
    simp only [commandRule, readModuleRule]
    repeat' split
    all_goals exact ⟨s.freeCount, _, _, rfl⟩

theorem judge_onlyAnswers {s : State} {c : Instr} {q : Request} (hother : s.mgmt.owner ≠ some q.src)
    (hclaim : commandName c ≠ some .claim) : s.onlyAnswers (s.judge q (commandName c) (commandRule c)) := by
  cases hn : commandName c with
  | none => exact onlyAnswers_respond hother s.freeCount _ _
  | some n =>
    simp only [State.judge]
    split
    · exact onlyAnswers_respond hother s.freeCount _ _
    · next hopen =>
      have hopen : n.isOpen = true := by simpa [hother] using hopen
      split
      · exact onlyAnswers_respond hother s.freeCount _ _
      · obtain ⟨k, st, r, hanswer⟩ := read_answers hn hopen (by rintro rfl; exact hclaim hn) s q
        rw [hanswer]
        exact onlyAnswers_respond hother k st r

/-- Settles O28, by what a request can do at all. -/
theorem nonOwnerChangesNothing : Obligations.NonOwnerChangesNothing := by
  intro s t c q hq hother hclaim hnext
  show s.onlyAnswers t
  rw [exec_request hq] at hnext
  obtain ⟨-, rfl⟩ | ⟨-, ht⟩ := request_cases hnext
  · exact onlyAnswers_self _
  · obtain rfl | rfl | ⟨-, -, rfl⟩ := ht
    · exact ⟨s.ports.responses, tally s.ports.tErrors, s.ports.tRefused, s.freeCount, rfl⟩
    · exact ⟨s.ports.responses, s.ports.tErrors, tally s.ports.tRefused, s.freeCount, rfl⟩
    · cases hstarted : s.started with
      | false => rw [takeRequest_notReady hstarted]; exact onlyAnswers_replied s s.freeCount _
      | true =>
        rw [takeRequest_other hstarted hother]
        refine judge_onlyAnswers hother fun hname => ?_
        cases c <;> simp only [commandName, Option.some.injEq, reduceCtorEq] at hname
        exact hclaim _ _ _ rfl

end Sys2Proof.Machine
end

section
/-!
PROOFS. CLAIM, the owner change with the return of the outstanding records, YIELD, and QUERY-STATUS (R73 to R75, R98, R156 to R158,
R165).
-/

namespace Sys2Proof.Machine

set_option Elab.async false

/-! ## CLAIM (R157) -/

theorem claimRule_length {s : State} {q : Request} (h : q.params.length ≠ 1) : claimRule s q = .answer s .badRequest .none := by
  unfold claimRule
  split
  · next hparams => exact absurd (congrArg List.length hparams) h
  · rfl

theorem readFlag_of_gt {b : Byte} (h : 1 < b.toNat) : readFlag b = none := by
  unfold readFlag
  split
  · next h0 => omega
  · next h1 => omega
  · rfl

theorem readFlag_of_le {b : Byte} (h : ¬1 < b.toNat) : readFlag b = some (decide (b ≠ 0)) := by
  obtain rfl | rfl : b = 0 ∨ b = 1 := by bv_omega
  · rfl
  · rfl

/-- The table of R157 by the owner, FORCE and the part state. -/
theorem claimRule_flag {s : State} {q : Request} {b : Byte} (hparams : q.params = [b]) (hb : ¬1 < b.toNat) :
    claimRule s q =
      match s.mgmt.owner with
      | none => .answer (s.changeOwner (some q.src)) .done (.owner (some q.src))
      | some o =>
        if o = q.src then .answer s .done (.owner (some q.src))
        else if b = 0 then .answer s .notOwner (.owner (some o))
        else if s.start.part = .held then .answer (s.changeOwner (some q.src)) .done (.owner (some q.src))
        else .answer s .wrongState .none := by
  cases howner : s.mgmt.owner <;>
    simp only [claimRule, hparams, howner, readFlag_of_le hb, claimed, decide_eq_false_iff_not, ne_eq, not_not]

/-- Settles O29. -/
theorem claimByOwnerAndForce : Obligations.ClaimByOwnerAndForce := by
  intro s src tag howner refused
  have hrefused : ∀ params, State.respond s ⟨src, tag, 1, params⟩ .badRequest .none = refused := fun params => respond_eq_ite ..
  have hanswer {params : List Byte} {t : State} {st : Status} {r : Results} (htakes : s.takes src params)
      (hrule : claimRule s ⟨src, tag, 1, params⟩ = .answer t st r) :
      exec (.claim src tag params) s = .next (t.respond ⟨src, tag, 1, params⟩ st r) :=
    request_open_answer htakes howner rfl rfl hrule
  refine ⟨fun force htakes => ?_, fun params htakes hlength => ?_⟩
  · by_cases hforce : 1 < force.toNat
    · have hrule : claimRule s ⟨src, tag, 1, [force]⟩ = .answer s .badRequest .none := by
        simp only [claimRule, readFlag_of_gt hforce]
      rw [if_pos hforce, hanswer htakes hrule, hrefused]
    · rw [if_neg hforce]
      have hrule := claimRule_flag (s := s) (q := ⟨src, tag, 1, [force]⟩) rfl hforce
      cases ho : s.mgmt.owner with
      | none =>
        rw [ho] at hrule
        rw [hanswer htakes hrule, respond_owner (q := ⟨src, tag, 1, [force]⟩) _ _ (changeOwner_owner ..)]
      | some o =>
        rw [ho] at hrule
        dsimp only at hrule ⊢
        by_cases hsame : o = src
        · rw [if_pos hsame] at hrule ⊢
          rw [hanswer htakes hrule, respond_owner _ _ (by rw [ho, hsame])]
        · have hother : s.mgmt.owner ≠ some src := by rw [ho]; exact fun h => hsame (Option.some.inj h)
          rw [if_neg hsame] at hrule ⊢
          by_cases hzero : force = 0
          · rw [if_pos hzero] at hrule ⊢
            rw [hanswer htakes hrule, respond_other _ _ hother]
          · rw [if_neg hzero] at hrule ⊢
            by_cases hheld : s.start.part = .held
            · rw [if_pos hheld] at hrule ⊢
              rw [hanswer htakes hrule, respond_owner (q := ⟨src, tag, 1, [force]⟩) _ _ (changeOwner_owner ..)]
            · rw [if_neg hheld] at hrule ⊢
              rw [hanswer htakes hrule, respond_other _ _ hother]
  · rw [hanswer htakes (claimRule_length hlength), hrefused]

/-! ## The owner change (R98, R112, R156) -/

theorem sweepOwnerChange_eq (g : SweepGenerator) :
    g.ownerChange = if g.state = .idle then g else { g with state := .idle, lastEnd := .ownerChanged } := by
  cases hstate : g.state <;> simp [SweepGenerator.ownerChange, hstate]

theorem changeOwner_eq (s : State) (owner : Option Node) :
    s.changeOwner owner =
      { s with
        queue := s.queue.takeBack s.emitter.classes s.emitter.outstanding
        emitter :=
          { s.emitter with
            ackTimer := .stopped, outstanding := [], link := .normal
            hailTimer := if s.emitter.link = .deaf then .stopped else s.emitter.hailTimer
            hailPending := if s.emitter.link = .deaf then false else s.emitter.hailPending }
        start := { s.start with alert := if s.emitter.link = .deaf then s.start.startAlert else s.start.alert }
        sweep := if s.sweep.state = .idle then s.sweep else { s.sweep with state := .idle, lastEnd := .ownerChanged }
        mgmt := { s.mgmt with owner := owner, cache := none } } := by
  rw [← sweepOwnerChange_eq, State.changeOwner, State.emitterOwnerChange]
  split
  · next hlink =>
    have hnormal : ({ s.emitter with ackTimer := .stopped, outstanding := [] } : Emitter) =
        { s.emitter with ackTimer := .stopped, outstanding := [], link := .normal } := by rw [← hlink]
    have hdeaf : s.emitter.link ≠ .deaf := by simp [hlink]
    rw [hnormal, if_neg hdeaf, if_neg hdeaf, if_neg hdeaf]
    simp only [State.withQueue, State.withEmitter, State.withSweep, State.withMgmt]
  · next hlink =>
    rw [if_pos hlink, if_pos hlink, if_pos hlink]
    simp only [State.withQueue, State.withEmitter, State.withStart, State.withSweep, State.withMgmt, Emitter.linkNormal,
      StartController.dropAlert]

/-! ## The return (R73 to R75), in the words of the statement -/

theorem holds_iff_lists (q : ReportQueue) (r : Report) :
    q.holds r = true ↔ q.urgent.any r.matches = true ∨ ∃ c : ReportClass, (q.lists.get c).any r.matches = true := by
  simp only [ReportQueue.holds, List.any_eq_true, mem_unsent]
  constructor
  · rintro ⟨x, hx | ⟨c, hx⟩, hmatch⟩
    · exact .inl ⟨x, hx, hmatch⟩
    · exact .inr ⟨c, x, hx, hmatch⟩
  · rintro (⟨x, hx, hmatch⟩ | ⟨c, x, hx, hmatch⟩)
    · exact ⟨x, .inl hx, hmatch⟩
    · exact ⟨x, .inr ⟨c, hx⟩, hmatch⟩

/-- One returned record taken into the queue or among the survivors (R73). -/
def considerReturned (r : Report) (a : ReportQueue × List Report) : ReportQueue × List Report :=
  if a.1.holds r = true then (a.1.mapRecords fun x => if r.matches x then r.merged x else x, a.2)
  else if a.2.any r.matches = true then (a.1, a.2.map fun x => if r.matches x then r.merged x else x)
  else (a.1, r :: a.2)

theorem mergeReturned_eq_foldl (rs : List Report) (q : ReportQueue) (kept : List Report) :
    mergeReturned rs q kept = rs.foldl (fun a r => considerReturned r a) (q, kept) := by
  induction rs generalizing q kept with
  | nil => rfl
  | cons r rs ih =>
    simp only [mergeReturned, List.foldl_cons, considerReturned, ih]
    split_ifs <;> rfl

/-- The newest record is considered first. -/
theorem mergeReturned_reverse (rs : List Report) (q : ReportQueue) :
    mergeReturned rs.reverse q [] = rs.foldr considerReturned (q, []) := by
  rw [mergeReturned_eq_foldl, List.foldl_reverse]

/-- A survivor at its turn takes a free urgent place, or goes to the class lists without mark (R74). -/
def divideStep (places : Nat) (d : List Report × List Report) (r : Report) : List Report × List Report :=
  if r.urgent = true ∧ d.1.length < places then (d.1 ++ [r], d.2) else (d.1, d.2 ++ [{ r with urgent := false }])

theorem foldl_divideStep (places : Nat) (rs : List Report) (d : List Report × List Report) :
    rs.foldl (divideStep places) d =
      (d.1 ++ (divideReturned (places - d.1.length) rs).1, d.2 ++ (divideReturned (places - d.1.length) rs).2) := by
  induction rs generalizing d with
  | nil => simp [divideReturned]
  | cons r rs ih =>
    rw [List.foldl_cons, ih, divideStep]
    cases hurgent : r.urgent with
    | false =>
      have hmark : { r with urgent := false } = r := by rw [← hurgent]
      simp [divideReturned, hurgent, hmark]
    | true =>
      by_cases hroom : d.1.length < places
      · obtain ⟨n, hn⟩ : ∃ n, places - d.1.length = n + 1 := ⟨places - d.1.length - 1, by omega⟩
        have hn' : places - (d.1 ++ [r]).length = n := by rw [List.length_append, List.length_singleton]; omega
        simp only [hroom, and_self, if_true, hn', divideReturned, hurgent, hn, List.append_assoc, List.singleton_append]
      · have hn : places - d.1.length = 0 := by omega
        simp only [hroom, and_false, if_false, divideReturned, hurgent, if_true, hn, List.append_assoc, List.singleton_append]

/-- The worst class is the one that every other non-empty class ranks before (R68). -/
abbrev isWorst (q : ReportQueue) (classes : PerClass ClassSetting) (w : ReportClass) : Prop :=
  q.lists.get w ≠ [] ∧
    ∀ d : ReportClass, q.lists.get d ≠ [] → d ≠ w →
      (classes.get d).rank < (classes.get w).rank ∨ ((classes.get w).rank = (classes.get d).rank ∧ d < w)

theorem worst_iff_isWorst (q : ReportQueue) (classes : PerClass ClassSetting) (w : ReportClass) :
    q.worst classes = some w ↔ isWorst q classes w := by
  rw [worst_iff]
  simp only [worse_iff, isWorst]

theorem find_worst (q : ReportQueue) (classes : PerClass ClassSetting) (p : ReportClass → Bool)
    (hp : ∀ w, p w = true ↔ isWorst q classes w) : allClasses.find? p = q.worst classes := by
  cases hfind : allClasses.find? p with
  | some w => exact ((worst_iff_isWorst q classes w).mpr ((hp w).mp (List.find?_some hfind))).symm
  | none =>
    cases hworst : q.worst classes with
    | none => rfl
    | some w =>
      have hw := (hp w).mpr ((worst_iff_isWorst q classes w).mp hworst)
      exact absurd hw (List.find?_eq_none.mp hfind w (mem_allClasses w))

/-- One eviction of the return, if any class list holds a record (R75). -/
def evictWorst (classes : PerClass ClassSetting) (q : ReportQueue) : ReportQueue :=
  match q.worst classes with
  | some w => q.evict w
  | none => q

theorem evictTimes_eq_iterate (classes : PerClass ClassSetting) (n : Nat) (q : ReportQueue) :
    q.evictTimes classes n = (evictWorst classes)^[n] q := by
  induction n generalizing q with
  | zero => rfl
  | succ n ih =>
    rw [Function.iterate_succ_apply]
    cases hworst : q.worst classes with
    | some w => simp only [ReportQueue.evictTimes, hworst, ih, evictWorst]
    | none =>
      have hfix : evictWorst classes q = q := by rw [evictWorst, hworst]
      simp only [ReportQueue.evictTimes, hworst, hfix, Function.iterate_fixed hfix]

theorem not_isSweep (r : Report) : (!r.isSweep) = decide (r.kind ≠ .sweep ∧ r.kind ≠ .sweepEnd) := by
  cases hkind : r.kind <;> simp [Report.isSweep, hkind]

/-- The return by its four stages: what is returned, the merging, the places, the evictions. -/
theorem takeBack_eq (q : ReportQueue) (classes : PerClass ClassSetting) (outstanding : List Outstanding) :
    let merged := ((outstanding.map Outstanding.report).filter fun r => !r.isSweep).foldr considerReturned (q, [])
    let divided := merged.2.foldl (divideStep (4 - merged.1.urgent.length)) ([], [])
    let placed : ReportQueue :=
      { merged.1 with
        urgent := divided.1 ++ merged.1.urgent
        lists := .ofFn fun c => divided.2.filter (fun r => decide (r.cls = c)) ++ merged.1.lists.get c }
    q.takeBack classes outstanding = (evictWorst classes)^[placed.pooled - 256] placed := by
  simp only [ReportQueue.takeBack, mergeReturned_reverse, evictTimes_eq_iterate, foldl_divideStep, List.nil_append,
    List.length_nil, Nat.sub_zero]
  rfl

/-! ## YIELD (R158) -/

theorem yieldRule_nonempty {s : State} {q : Request} (h : q.params ≠ []) : yieldRule s q = .answer s .badRequest .none := by
  obtain ⟨b, l, hparams⟩ := List.exists_cons_of_ne_nil h
  rw [yieldRule, hparams]

/-- Settles O30: the whole state after the change, the return stage by stage, and YIELD. -/
theorem ownerChangeEvent : Obligations.OwnerChangeEvent := by
  refine ⟨changeOwner_eq, fun q classes outstanding => ?_, fun s src tag params hready => ?_⟩
  · intro twin merge consider returned merged divided placed evict
    have htwin : ∀ r, twin r = r.matches := fun r => funext fun x => Bool.decide_and ..
    have hmerge : ∀ r, merge r = fun x => if r.matches x then r.merged x else x := fun r => funext fun x => by
      simp only [merge, htwin, Report.merged, ite_not, ne_eq]; rfl
    have hconsider : consider = considerReturned := funext fun r => funext fun a => by
      simp only [consider, considerReturned, htwin, hmerge, ← holds_iff_lists]; rfl
    have hreturned : returned = (outstanding.map Outstanding.report).filter fun r => !r.isSweep := by
      simp only [returned, not_isSweep]
    have hevict : evict = evictWorst classes := funext fun p => by
      simp only [evictWorst, ← find_worst p classes (fun w => decide (isWorst p classes w)) fun w => decide_eq_true_iff]
      rfl
    rw [hevict, takeBack_eq, ← hreturned, ← hconsider]
    rfl
  · by_cases hparams : params = []
    · subst hparams
      rw [if_pos rfl]
      refine (request_ready hready).trans ?_
      exact congrArg Host.Outcome.next (respond_other _ _ (by rw [changeOwner_owner]; simp))
    · rw [if_neg hparams]
      exact request_answer hready (yieldRule_nonempty hparams) rfl

/-! ## QUERY-STATUS (R165) -/

theorem queryStatusRule_nonempty {s : State} {q : Request} (h : q.params ≠ []) :
    queryStatusRule s q = .answer s .badRequest .none := by
  obtain ⟨b, l, hparams⟩ := List.exists_cons_of_ne_nil h
  rw [queryStatusRule, hparams]

/-- Settles O31: the report is the model's, value by value. -/
theorem queryStatusReports : Obligations.QueryStatusReports := by
  intro s src tag howner
  refine ⟨fun params htakes hparams => ?_, fun htakes => ?_⟩
  · refine (request_open_answer htakes howner rfl rfl (queryStatusRule_nonempty hparams)).trans ?_
    rw [respond_eq_ite]
    rfl
  · refine ⟨s.statusReport, s.freeCount + 2, ?_, rfl, rfl, rfl, rfl, rfl, rfl, rfl, rfl, rfl, rfl, fun c => ⟨PerClass.get_ofFn .., rfl⟩,
      rfl, rfl, rfl, rfl, rfl, rfl, rfl, rfl, rfl, rfl, rfl, rfl, rfl, rfl, rfl, rfl⟩
    refine (request_open_answer (t := s.withFreeCount (s.freeCount + 2)) htakes howner rfl rfl rfl).trans ?_
    rw [respond_eq_ite]
    rfl

end Sys2Proof.Machine
end

section
/-!
PROOFS. The setting, sweep and mark requests, ACK, and the operations that take time (R71, R88, R91, R92, R104 to R128, R168).
-/

namespace Sys2Proof.Machine

set_option Elab.async false

/-! ## SET-CLASS and DISCARD-CLASS -/

theorem setClassRule_refused {s : State} {q : Request} (hread : readClassSetting q.params = none) :
    setClassRule s q = .answer s .badRequest .none := by
  simp only [setClassRule, hread]

theorem setClassRule_done {s : State} {q : Request} {c : ReportClass} {x : ClassSetting}
    (hread : readClassSetting q.params = some (c, x)) :
    setClassRule s q = .answer (s.withEmitter (s.emitter.setClass c x)) .done .none := by
  simp only [setClassRule, hread]

theorem discardClassRule_length {s : State} {q : Request} (h : q.params.length ≠ 1) :
    discardClassRule s q = .answer s .badRequest .none := by
  unfold discardClassRule
  split
  · next hparams => exact absurd (congrArg List.length hparams) h
  · rfl

theorem discardClassRule_refused {s : State} {q : Request} {b : Byte} (hparams : q.params = [b]) (hread : readClass b = none) :
    discardClassRule s q = .answer s .badRequest .none := by
  simp only [discardClassRule, hparams, hread]

theorem discardClassRule_done {s : State} {q : Request} {b : Byte} {c : ReportClass} (hparams : q.params = [b])
    (hread : readClass b = some c) :
    discardClassRule s q = .answer (s.withQueue (s.queue.discard c)) .done (.discarded (s.queue.lists.get c).length) := by
  simp only [discardClassRule, hparams, hread]

/-! ## SET-PART (R168, R187) -/

/-- The bytes of a field of two bytes that may be absent. -/
def wordField (f : Option Word) : List Byte := f.elim [] wordBytes

theorem field1_toList (f : Option Byte) (rest : List Byte) : field1 f.isSome (f.toList ++ rest) = (f.map BitVec.toNat, rest) := by
  cases f <;> simp [field1]

theorem field2_wordField (f : Option Word) (rest : List Byte) : field2 f.isSome (wordField f ++ rest) = (f.map BitVec.toNat, rest) := by
  cases f with
  | none => rfl
  | some w => simp [field2, wordField, wordBytes, word_bytes]

theorem length_toList (f : Option Byte) : f.toList.length = f.isSome.toNat := by cases f <;> rfl

theorem length_wordField (f : Option Word) : (wordField f).length = f.isSome.toNat * 2 := by cases f <;> rfl

theorem map_all_iff {α : Type} (f : Option α) (g : α → Nat) (p : Nat → Bool) :
    (f.map g).all p = true ↔ ∀ x ∈ f, p (g x) = true := by
  cases f <;> simp

theorem onStep_iff (low high step n : Nat) : onStep low high step n = true ↔ low ≤ n ∧ n ≤ high ∧ n % step = 0 := by
  simp only [onStep, Bool.and_eq_true, decide_eq_true_eq, and_assoc]

theorem toNat_mul_two (b : Bool) : b.toNat * 2 = if b then 2 else 0 := by cases b <;> rfl

theorem toNat_eq_ite (b : Bool) : b.toNat = if b then 1 else 0 := by cases b <;> rfl

theorem partLength_eq (presence : Byte) :
    partLength presence =
      1 + (if presence.getLsbD 0 then 2 else 0) + (if presence.getLsbD 1 then 1 else 0) +
        (if presence.getLsbD 2 then 2 else 0) + (if presence.getLsbD 3 then 1 else 0) +
        (if presence.getLsbD 4 then 1 else 0) + (if presence.getLsbD 5 then 1 else 0) +
        (if presence.getLsbD 6 then 1 else 0) := by
  simp only [partLength, toNat_mul_two]
  simp only [toNat_eq_ite]

theorem readPartParams_length {params : List Byte} (h : params.length ≠ partLength (params.getD 0 0)) :
    readPartParams params = none := by
  cases params with
  | nil => rfl
  | cons presence rest => exact if_neg h

section
variable {presence : Byte} {ack hail : Option Word} {retry point module head sweep : Option Byte}

/-- The present fields, laid out in the order of the bits, are read as they were written (R187). -/
theorem readPartFields_written (h0 : presence.getLsbD 0 = ack.isSome) (h1 : presence.getLsbD 1 = retry.isSome)
    (h2 : presence.getLsbD 2 = hail.isSome) (h3 : presence.getLsbD 3 = point.isSome) (h4 : presence.getLsbD 4 = module.isSome)
    (h5 : presence.getLsbD 5 = head.isSome) (h6 : presence.getLsbD 6 = sweep.isSome) :
    readPartFields presence
        (wordField ack ++ (retry.toList ++ (wordField hail ++
          (point.toList ++ (module.toList ++ (head.toList ++ (sweep.toList ++ []))))))) =
      ⟨ack.map BitVec.toNat, retry.map BitVec.toNat, hail.map BitVec.toNat, point.map BitVec.toNat, module.map BitVec.toNat,
        head.map BitVec.toNat, sweep.map BitVec.toNat⟩ := by
  simp only [readPartFields, h0, h1, h2, h3, h4, h5, h6, field2_wordField, field1_toList]

theorem partLength_written (h0 : presence.getLsbD 0 = ack.isSome) (h1 : presence.getLsbD 1 = retry.isSome)
    (h2 : presence.getLsbD 2 = hail.isSome) (h3 : presence.getLsbD 3 = point.isSome) (h4 : presence.getLsbD 4 = module.isSome)
    (h5 : presence.getLsbD 5 = head.isSome) (h6 : presence.getLsbD 6 = sweep.isSome) :
    (wordField ack ++ (retry.toList ++ (wordField hail ++
        (point.toList ++ (module.toList ++ (head.toList ++ (sweep.toList ++ []))))))).length +
      1 = partLength presence := by
  simp only [partLength, h0, h1, h2, h3, h4, h5, h6, List.length_append, length_wordField, length_toList, List.length_nil]
  omega

theorem readPartParams_written (h0 : presence.getLsbD 0 = ack.isSome) (h1 : presence.getLsbD 1 = retry.isSome)
    (h2 : presence.getLsbD 2 = hail.isSome) (h3 : presence.getLsbD 3 = point.isSome) (h4 : presence.getLsbD 4 = module.isSome)
    (h5 : presence.getLsbD 5 = head.isSome) (h6 : presence.getLsbD 6 = sweep.isSome) :
    readPartParams (presence :: (wordField ack ++ retry.toList ++ wordField hail ++ point.toList ++ module.toList ++ head.toList ++
        sweep.toList)) =
      if (⟨ack.map BitVec.toNat, retry.map BitVec.toNat, hail.map BitVec.toNat, point.map BitVec.toNat, module.map BitVec.toNat,
          head.map BitVec.toNat, sweep.map BitVec.toNat⟩ : PartFields).inRange = true then
        some ⟨ack.map BitVec.toNat, retry.map BitVec.toNat, hail.map BitVec.toNat, point.map BitVec.toNat, module.map BitVec.toNat,
          head.map BitVec.toNat, sweep.map BitVec.toNat⟩
      else none := by
  have hlength := partLength_written h0 h1 h2 h3 h4 h5 h6
  have hfields := readPartFields_written h0 h1 h2 h3 h4 h5 h6
  rw [List.append_nil] at hlength hfields
  simp only [List.append_assoc, readPartParams, hlength, if_true, hfields]

theorem partFields_inRange_iff :
    (⟨ack.map BitVec.toNat, retry.map BitVec.toNat, hail.map BitVec.toNat, point.map BitVec.toNat, module.map BitVec.toNat,
        head.map BitVec.toNat, sweep.map BitVec.toNat⟩ : PartFields).inRange = true ↔
      (∀ w ∈ ack, 5 ≤ w.toNat ∧ w.toNat ≤ 1275 ∧ w.toNat % 5 = 0) ∧ (∀ b ∈ retry, 1 ≤ b.toNat ∧ b.toNat ≤ 7) ∧
        (∀ w ∈ hail, 100 ≤ w.toNat ∧ w.toNat ≤ 25500 ∧ w.toNat % 100 = 0) ∧ (∀ b ∈ point, b.toNat ≤ 1) ∧
        (∀ b ∈ module, b.toNat ≤ 1) ∧ (∀ b ∈ head, b.toNat ≤ 7) ∧ (∀ b ∈ sweep, b.toNat ≤ 7) := by
  simp only [PartFields.inRange, Bool.and_eq_true, map_all_iff, onStep_iff, Nat.mod_one, and_true, Nat.zero_le, true_and, and_assoc]

theorem readUnlistedPolicy_toNat (b : Byte) : readUnlistedPolicy b.toNat = if b = 0 then .forward else .drop := by
  have hzero : b.toNat = 0 ↔ b = 0 := by bv_omega
  simp only [readUnlistedPolicy, hzero]

theorem partFields_apply (p : PartSettings) :
    (⟨ack.map BitVec.toNat, retry.map BitVec.toNat, hail.map BitVec.toNat, point.map BitVec.toNat, module.map BitVec.toNat,
        head.map BitVec.toNat, sweep.map BitVec.toNat⟩ : PartFields).apply p =
      { ackWait := (ack.map BitVec.toNat).getD p.ackWait
        retryLimit := (retry.map BitVec.toNat).getD p.retryLimit
        hailInterval := (hail.map BitVec.toNat).getD p.hailInterval
        pointPolicy := (point.map fun b => if b = 0 then .forward else .drop).getD p.pointPolicy
        modulePolicy := (module.map fun b => if b = 0 then .forward else .drop).getD p.modulePolicy
        headClass := (head.map fun b => Fin.ofNat 8 b.toNat).getD p.headClass
        sweepRank := (sweep.map fun b => Fin.ofNat 8 b.toNat).getD p.sweepRank } := by
  simp only [PartFields.apply, Option.map_map, Function.comp_def, readUnlistedPolicy_toNat]

end

theorem setPartRule_refused {s : State} {q : Request} (hread : readPartParams q.params = none) :
    setPartRule s q = .answer s .badRequest .none := by
  simp only [setPartRule, hread]

theorem setPartRule_done {s : State} {q : Request} {f : PartFields} (hread : readPartParams q.params = some f) :
    setPartRule s q =
      .answer (s.withStart { s.start with settings := f.apply s.start.settings }) .done (.settings (f.apply s.start.settings)) := by
  simp only [setPartRule, hread]

theorem exec_setPart_refused {s : State} {src : Node} {tag : Byte} {params : List Byte} (hready : s.ready src tag params)
    (hread : readPartParams params = none) : exec (.setPart src tag params) s = .next (s.answered src tag 14 .badRequest .none) :=
  request_answer hready (setPartRule_refused hread) rfl

theorem exec_setPart_done {s : State} {src : Node} {tag : Byte} {params : List Byte} (hready : s.ready src tag params)
    {f : PartFields} (hread : readPartParams params = some f) :
    exec (.setPart src tag params) s = .next
      ((s.withStart { s.start with settings := f.apply s.start.settings }).answered src tag 14 .done
        (.settings (f.apply s.start.settings))) :=
  request_answer hready (setPartRule_done hread) rfl

/-- Settles O34. -/
theorem settingRequests : Obligations.SettingRequests := by
  intro s src tag params hready
  refine ⟨?setClass, fun hlength => ?length, ?fields, ?discard⟩
  case setClass =>
    cases hread : readClassSetting params with
    | none => exact request_answer hready (setClassRule_refused hread) rfl
    | some x => exact request_answer hready (setClassRule_done hread) rfl
  case discard =>
    obtain _ | ⟨b, _ | ⟨b', rest⟩⟩ := params
    case cons.nil =>
      dsimp only
      cases hread : readClass b with
      | none => exact request_answer hready (discardClassRule_refused rfl hread) rfl
      | some c => exact request_answer hready (discardClassRule_done rfl hread) rfl
    all_goals exact request_answer hready (discardClassRule_length (by simp)) rfl
  case length =>
    rw [← partLength_eq] at hlength
    exact exec_setPart_refused hready (readPartParams_length hlength)
  case fields =>
    intro presence ack hail retry point module head sweep h0 h1 h2 h3 h4 h5 h6 two hparams old policy settings
    have hread : readPartParams params = _ :=
      (congrArg readPartParams hparams).trans (readPartParams_written h0 h1 h2 h3 h4 h5 h6)
    simp only [partFields_inRange_iff] at hread
    split
    · next hrange =>
      rw [if_pos hrange] at hread
      rw [exec_setPart_done hready hread, partFields_apply]
      rfl
    · next hrange =>
      rw [if_neg hrange] at hread
      exact exec_setPart_refused hready hread

/-! ## ACK (R91, R92) -/

theorem exec_ack {s : State} {src : Node} {tag : Byte} {params : List Byte} (htakes : s.takes src params)
    (howner : s.mgmt.owner = some src) (hlink : s.emitter.link = .normal) (htag : s.mgmt.cached tag = none) {t : State} {st : Status}
    {r : Results} (hrule : ackRule s ⟨src, tag, 16, params⟩ = .answer t st r) (hkept : t.mgmt = s.mgmt) :
    exec (.ack src tag params) s = .next (t.answered src tag 16 st r) := by
  have howner' : t.mgmt.owner = some src := by rw [hkept, howner]
  refine (request_ofOwner htakes howner htag rfl).trans ?_
  rw [endDeaf_normal hlink]
  refine congrArg Host.Outcome.next ?_
  show (ackRule s ⟨src, tag, 16, params⟩).apply ⟨src, tag, 16, params⟩ = _
  rw [hrule, Act.apply, respond_owner _ _ howner']

theorem ackTimerFor_normal (ackWait : Nat) (l : List Outstanding) :
    ackTimerFor .normal ackWait l = if oldestIsSent l = true then .running ackWait ackWait else .stopped := by
  cases l with
  | nil => rfl
  | cons o l => simp only [ackTimerFor, and_true, oldestIsSent, decide_eq_true_eq]; rfl

theorem ackRule_length {s : State} {q : Request} (h : q.params.length ≠ 2) : ackRule s q = .answer s .badRequest .none := by
  unfold ackRule
  split
  · next hparams => exact absurd (congrArg List.length hparams) h
  · rfl

theorem ackRule_done {s : State} {q : Request} {high low : Byte} {n : Nat} (hparams : q.params = [high, low])
    (hcount : ackedCount (word high low) s.emitter.outstanding = some n) :
    ackRule s q =
      .answer (s.withEmitter (s.emitter.acked s.start.settings.ackWait n)) .done
        (.acknowledged n (s.emitter.outstanding.drop n).length) := by
  simp only [ackRule, hparams, hcount]

/-- Settles O35: with nothing outstanding there is neither an oldest nor a newest number. -/
theorem ackRemovesFromTheFront : Obligations.AckRemovesFromTheFront := by
  intro s src tag howner hlink htag
  refine ⟨fun high low htakes => ?_, fun params htakes hlength => exec_ack htakes howner hlink htag (ackRule_length hlength) rfl⟩
  cases hhead : s.emitter.outstanding.head? with
  | none =>
    have hnil : s.emitter.outstanding = [] := List.head?_eq_none_iff.mp hhead
    refine exec_ack htakes howner hlink htag ?_ rfl
    simp only [ackRule, ackedCount, hnil, List.head?_nil, List.length_nil]
  | some oldest =>
    cases hlast : s.emitter.outstanding.getLast? with
    | none =>
      have hnil : s.emitter.outstanding = [] := List.getLast?_eq_none_iff.mp hlast
      rw [hnil] at hhead; cases hhead
    | some newest =>
      dsimp only
      split
      · next hrange =>
        have hcount : ackedCount (word high low) s.emitter.outstanding =
            some (((high ++ low : Word) - oldest.number).toNat + 1) := by
          simp only [ackedCount, hhead, hlast, word, hrange, if_true]
        refine (exec_ack htakes howner hlink htag (ackRule_done rfl hcount) rfl).trans ?_
        simp only [Emitter.acked, hlink, ackTimerFor_normal]
        rfl
      · next hrange =>
        refine exec_ack htakes howner hlink htag ?_ rfl
        simp only [ackRule, ackedCount, hhead, hlast, word, hrange, if_false]

/-! ## Sweeps and marks (R104, R109, R115) -/

section
variable {s : State} {q : Request} {code c : Byte}

theorem sweepStartRule_length (h : q.params.length ≠ 2) : sweepStartRule s q = .answer s .badRequest .none := by
  unfold sweepStartRule
  split
  · next hparams => exact absurd (congrArg List.length hparams) h
  · rfl

theorem sweepStartRule_refused (hparams : q.params = [code, c]) (hscope : readScope code c = none) :
    sweepStartRule s q = .answer s .badRequest .none := by
  simp only [sweepStartRule, hparams, hscope]

theorem sweepStartRule_done {scope : Scope} (hparams : q.params = [code, c]) (hscope : readScope code c = some scope)
    (hstate : s.sweep.state = .idle) :
    sweepStartRule s q = .answer (s.withSweep (s.sweep.started scope)) .done (.sweepNumber (s.sweep.number + 1)) := by
  simp only [sweepStartRule, hparams, hscope, hstate]

theorem sweepStartRule_busy {scope : Scope} (hparams : q.params = [code, c]) (hscope : readScope code c = some scope)
    (hstate : s.sweep.state ≠ .idle) : sweepStartRule s q = .answer s .busy .none := by
  simp only [sweepStartRule, hparams, hscope]
  cases h : s.sweep.state
  · exact absurd h hstate
  · rfl
  · rfl

theorem sweepStopRule_nonempty (h : q.params ≠ []) : sweepStopRule s q = .answer s .badRequest .none := by
  obtain ⟨b, l, hparams⟩ := List.exists_cons_of_ne_nil h
  rw [sweepStopRule, hparams]

theorem sweepStopRule_idle (hparams : q.params = []) (hstate : s.sweep.state = .idle) :
    sweepStopRule s q = .answer s .wrongState .none := by
  simp only [sweepStopRule, hparams, hstate]

/-- A sweep that is STOPPING already stays so. -/
theorem sweepStopRule_done (hparams : q.params = []) (hstate : s.sweep.state ≠ .idle) :
    sweepStopRule s q = .answer (s.withSweep { s.sweep with state := .stopping }) .done .none := by
  simp only [sweepStopRule, hparams]
  cases h : s.sweep.state
  · exact absurd h hstate
  · rfl
  · have hsame : s.withSweep { s.sweep with state := .stopping } = s := by rw [← h]; rfl
    rw [hsame]

theorem armMarkRule_length (h : q.params.length ≠ 4) : armMarkRule s q = .answer s .badRequest .none := by
  unfold armMarkRule
  split
  · next hparams => exact absurd (congrArg List.length hparams) h
  · rfl

theorem armMarkRule_refused {high low : Byte} (hparams : q.params = [high, low, code, c]) (hscope : readScope code c = none) :
    armMarkRule s q = .answer s .badRequest .none := by
  simp only [armMarkRule, hparams, hscope]

theorem armMarkRule_done {high low : Byte} {scope : Scope} (hparams : q.params = [high, low, code, c])
    (hscope : readScope code c = some scope) :
    armMarkRule s q =
      .answer (s.withSweep { s.sweep with arm := some ⟨word high low, scope⟩, triggerRefused := false }) .done .none := by
  simp only [armMarkRule, hparams, hscope]

theorem disarmMarkRule_nonempty (h : q.params ≠ []) : disarmMarkRule s q = .answer s .badRequest .none := by
  obtain ⟨b, l, hparams⟩ := List.exists_cons_of_ne_nil h
  rw [disarmMarkRule, hparams]

theorem disarmMarkRule_done (hparams : q.params = []) :
    disarmMarkRule s q = .answer (s.withSweep { s.sweep with arm := none }) .done .none := by
  simp only [disarmMarkRule, hparams]

end

/-- Settles O36, request by request. -/
theorem sweepRequests : Obligations.SweepRequests := by
  intro s src tag params hready swept
  refine ⟨?start, ?stop, ?arm, ?disarm⟩
  case start =>
    obtain _ | ⟨code, _ | ⟨c, _ | ⟨d, rest⟩⟩⟩ := params
    case cons.cons.nil =>
      dsimp only
      cases hscope : readScope code c with
      | none => exact request_answer hready (sweepStartRule_refused rfl hscope) rfl
      | some scope =>
        dsimp only
        split
        · next hidle => exact request_answer hready (sweepStartRule_done rfl hscope hidle) rfl
        · next hbusy => exact request_answer hready (sweepStartRule_busy rfl hscope hbusy) rfl
    all_goals exact request_answer hready (sweepStartRule_length (by simp)) rfl
  case stop =>
    split
    · next hparams => exact request_answer hready (sweepStopRule_nonempty hparams) rfl
    · next hparams =>
      split
      · next hidle => exact request_answer hready (sweepStopRule_idle (not_not.mp hparams) hidle) rfl
      · next hactive => exact request_answer hready (sweepStopRule_done (not_not.mp hparams) hactive) rfl
  case arm =>
    obtain _ | ⟨high, _ | ⟨low, _ | ⟨code, _ | ⟨c, _ | ⟨d, rest⟩⟩⟩⟩⟩ := params
    case cons.cons.cons.cons.nil =>
      dsimp only
      cases hscope : readScope code c with
      | none => exact request_answer hready (armMarkRule_refused rfl hscope) rfl
      | some scope => exact request_answer hready (armMarkRule_done rfl hscope) rfl
    all_goals exact request_answer hready (armMarkRule_length (by simp)) rfl
  case disarm =>
    split
    · next hparams => exact request_answer hready (disarmMarkRule_done hparams) rfl
    · next hparams => exact request_answer hready (disarmMarkRule_nonempty hparams) rfl

/-! ## COMMIT and COPY-ACTIVE taken (R123, R124) -/

theorem finalWaits_iff (s : State) : s.finalWaits = true ↔ ∃ r ∈ s.ports.responses, r.final = true := by
  rw [State.finalWaits, List.any_eq_true]

/-- The rule of the two operations at a request of the owner. -/
theorem operationRule_apply {s : State} {q : Request} (howner : s.mgmt.owner = some q.src) (o : Operation) (a : Activity) :
    (operationRule o a s q).apply q =
      if q.params ≠ [] then s.answered q.src q.tag q.name .badRequest .none
      else if ∃ r ∈ s.ports.responses, r.final = true then s.answered q.src q.tag q.name .busy .none
      else s.begin q o a := by
  simp only [operationRule, ← finalWaits_iff]
  cases q.params with
  | cons b rest => exact respond_owner _ _ howner
  | nil =>
    rw [if_neg (not_not.mpr rfl)]
    cases s.finalWaits
    · rfl
    · exact respond_owner _ _ howner

/-- Settles O37. -/
theorem operationsTaken : Obligations.OperationsTaken := by
  intro s src tag params hready
  have ⟨_, howner, _⟩ := hready
  exact ⟨(request_ready hready).trans (congrArg Host.Outcome.next (operationRule_apply howner .copyActive .copying)),
    (request_ready hready).trans (congrArg Host.Outcome.next (operationRule_apply howner .commit .committing))⟩

/-! ## The ends (R123, R125 to R128, R164) -/

theorem exec_copyActiveCompletion_not_due {s : State} (hreset : s.start.resetHeld = false) (h : s.tables.activity ≠ .copying) :
    exec .copyActiveCompletion s = .next s := by
  simp only [exec, execCopyActiveCompletion, whenReleased_released hreset, h, if_false]

theorem exec_commitRefusal_not_due {s : State} (hreset : s.start.resetHeld = false)
    (h : s.tables.activity ≠ .committing ∨ s.tables.staging.firstUnlisted = none) : exec .commitRefusal s = .next s := by
  simp only [exec, execCommitRefusal, whenReleased_released hreset]
  rcases h with h | h
  · rw [if_neg h]
  · rw [h, ite_self]

theorem exec_commitCompletion_not_due {s : State} (hreset : s.start.resetHeld = false)
    (h : ¬(s.tables.activity = .committing ∧ s.tables.staging.firstUnlisted = none)) : exec .commitCompletion s = .next s := by
  simp only [exec, execCommitCompletion, whenReleased_released hreset, h, if_false]

/-- Settles O38: the end that is due, with its final response, and the ends that are not. -/
theorem operationsEnd : Obligations.OperationsEnd := by
  intro s p hreset hprogress ended
  have hended {t : TableStore} {st : Status} {r : Results} :
      (s.withTables t).finalResponse st r = ended { s with tables := t } p.operation.code st r :=
    finalResponse_some (s := s.withTables t) hprogress st r
  refine ⟨fun hoperation hcopying => ⟨?_, ?_, ?_⟩, fun hoperation hcommitting => ⟨?_, ?_⟩⟩
  · rw [exec_copyActiveCompletion hreset hcopying, State.completeCopy, hended, hoperation]
    simp only [Bank.copied, Bank.mapRuns, Bank.unhear, Bank.mapSlots, List.length_map]
    rfl
  · exact exec_commitCompletion_not_due hreset fun h => by rw [hcopying] at h; cases h.1
  · exact exec_commitRefusal_not_due hreset (.inl (by rw [hcopying]; decide))
  · exact exec_copyActiveCompletion_not_due hreset (by rw [hcommitting]; decide)
  · cases hfind : s.tables.staging.entries.find? fun e => !s.tables.staging.lists e.config.key.station with
    | some e =>
      have hunlisted : s.tables.staging.firstUnlisted = some e.config.key := by rw [Bank.firstUnlisted, hfind]; rfl
      refine ⟨?_, exec_commitCompletion_not_due hreset fun h => by rw [hunlisted] at h; cases h.2⟩
      rw [exec_commitRefusal hreset hcommitting hunlisted, State.refuseCommit, hended, hoperation]
      rfl
    | none =>
      have hlisted : s.tables.staging.firstUnlisted = none := by rw [Bank.firstUnlisted, hfind]; rfl
      refine ⟨exec_commitRefusal_not_due hreset (.inr hlisted), ?_⟩
      rw [exec_commitCompletion hreset hcommitting hlisted, State.completeCommit, hended, hoperation]
      rfl

theorem transferredRun_eq (active : Bank) (e : Entry) :
    transferredRun active e =
      match active.entry? e.config.key with
      | some a =>
        if a.config.test ≠ e.config.test then ⟨.unknown, none, 0, none, none⟩
        else if a.run.runLength < e.config.confirm then a.run
        else { a.run with candidate := none, runLength := 0 }
      | none => ⟨.unknown, none, 0, none, none⟩ := by
  simp only [transferredRun, ite_not]
  cases active.entry? e.config.key <;> rfl

/-- Settles O39. -/
theorem commitTransfersRunState : Obligations.CommitTransfersRunState := by
  intro active staging running
  refine ⟨List.map_congr_left fun e _ => congrArg (fun run => ({ e with run } : Entry)) (transferredRun_eq active e),
    List.map_congr_left fun x _ => ?_⟩
  simp only [transferredSlot]
  cases active.slot? x.station <;> rfl

end Sys2Proof.Machine
end

section
/-!
PROOFS. Reports joining the queue (R64 to R68), and the expiries of the timers (R46, R49, R87, R90, R95).
-/

namespace Sys2Proof.Machine

set_option Elab.async false

/-! ## The queue -/

/-- A new report takes an urgent place while there is one (R66). -/
theorem add_urgent {q : ReportQueue} {classes : PerClass ClassSetting} {r : Report} (hnew : q.holds r = false)
    (hroom : q.urgent.length < 4) :
    q.add classes ⟨r, true⟩ = { q with urgent := q.urgent ++ [{ r with urgent := true }] } := by
  simp only [ReportQueue.add, hnew, Bool.false_eq_true, if_false, if_true]
  exact if_pos hroom

/-- Any other new report is placed in its class list, an urgent one that found no place at the front (R67). -/
theorem add_place {q : ReportQueue} {classes : PerClass ClassSetting} {r : Report} {urgent : Bool} (hnew : q.holds r = false)
    (h : urgent = false ∨ 4 ≤ q.urgent.length) : q.add classes ⟨r, urgent⟩ = q.place classes r urgent := by
  simp only [ReportQueue.add, hnew, Bool.false_eq_true, if_false]
  cases urgent with
  | false => rfl
  | true => exact if_neg (h.resolve_left (by simp)).not_gt

theorem place_room {q : ReportQueue} {classes : PerClass ClassSetting} {r : Report} {front : Bool} (h : q.pooled < 256) :
    q.place classes r front = q.join r front := if_pos h

theorem place_full {q : ReportQueue} {classes : PerClass ClassSetting} {r : Report} {front : Bool} {w : ReportClass}
    (h : 256 ≤ q.pooled) (hworst : q.worst classes = some w) :
    q.place classes r front = if worse classes w r.cls = true then (q.evict w).join r front else q.countLost r.cls := by
  rw [ReportQueue.place, if_neg (show ¬q.pooled < Config.poolCapacity from h.not_gt), hworst]

theorem coalesced_eq (r x : Report) :
    (if r.matches x then r.coalesced x else x) =
      if x.key = r.key ∧ x.kind = r.kind then
        { x with
          value := r.value, verdict := r.verdict, cycle := r.cycle, restart := r.restart
          repeatCount := min 255 (x.repeatCount + 1) }
      else x := by
  simp only [matches_iff]; rfl

/-- Settles O40. -/
theorem reportsJoinTheQueue : Obligations.ReportsJoinTheQueue := by
  refine ⟨?coalesced, ?joins⟩
  case coalesced =>
    intro q classes r urgent hheld folded
    have hfolded : (fun x => if r.matches x then r.coalesced x else x) = folded := funext fun x => coalesced_eq r x
    have hadd : q.add classes ⟨r, urgent⟩ = q.mapRecords folded := by
      rw [← hfolded]; exact if_pos hheld
    rw [hadd]
    exact ⟨rfl, rfl, fun c => PerClass.get_ofFn ..⟩
  case joins =>
    intro q classes r urgent hnew
    refine ⟨fun hurgent hroom => ?_, fun h => ?_⟩
    · subst hurgent; exact add_urgent hnew hroom
    · refine ⟨fun hroom => ?_, fun hfull w hne hworst => ?_⟩
      · rw [add_place hnew h, place_room hroom]; rfl
      · rw [add_place hnew h, place_full hfull ((worst_iff q classes w).mpr ⟨hne, hworst⟩)]; rfl

/-! ## Silence (R46, R49, R50) -/

theorem goSilent_bank (b : Bank) (m : Station) :
    (b.setSlot m .silent .stopped).clearDebounce m =
      { entries := b.entries.map fun e =>
          if e.config.key.station = m then { e with run := { e.run with candidate := none, runLength := 0 } } else e
        slots := b.slots.map fun y => if y.station = m then { y with state := .silent, timer := .stopped } else y } := by
  have hentry : (fun e : Entry => ({ e with run := if e.ofStation m then e.run.debounceCleared else e.run } : Entry)) =
      fun e => if e.config.key.station = m then { e with run := { e.run with candidate := none, runLength := 0 } } else e := by
    funext e
    simp only [Entry.ofStation, decide_eq_true_eq]
    split <;> rfl
  have hslot : (fun y : Slot => ({ y with
        state := (if y.station = m then (ModuleState.silent, Timer.stopped) else (y.state, y.timer)).1
        timer := (if y.station = m then (ModuleState.silent, Timer.stopped) else (y.state, y.timer)).2 } : Slot)) =
      fun y => if y.station = m then { y with state := .silent, timer := .stopped } else y := by
    funext y
    split <;> rfl
  rw [← hentry, ← hslot]; rfl

theorem exec_silenceExpiry_due {s : State} {m : Station} {x : Slot} {d : Nat} (hreset : s.start.resetHeld = false)
    (hrunning : s.start.part = .running) (hslot : s.tables.active.slot? m = some x) (hdue : x.timer = .running 0 d)
    (hheard : x.state ≠ .silent) :
    exec (.silenceExpiry m) s = .next
      { s with
        tables := s.tables.setActive ((s.tables.active.setSlot m .silent .stopped).clearDebounce m)
        queue := s.queue.add s.emitter.classes ⟨newReport .silent x.cls (.station m) s.sweep.cycle, false⟩ } := by
  have hisDue : x.timer.isDue = true := Timer.isDue_iff.mpr ⟨d, hdue⟩
  obtain ⟨hstation, -⟩ := Bank.slot?_some hslot
  rw [exec_silenceExpiry hreset (silenceSlot_eq_some.mpr ⟨hrunning, hslot, hisDue, hheard⟩), State.goSilent, hstation, moduleReport,
    hstation]
  rfl

theorem exec_silenceExpiry_not_due {s : State} {m : Station}
    (h : ∀ x, s.tables.active.slot? m = some x → ¬∃ d, x.timer = .running 0 d) : exec (.silenceExpiry m) s = .next s := by
  refine exec_silenceExpiry_none (Option.eq_none_iff_forall_ne_some.mpr fun x hx => ?_)
  obtain ⟨-, hslot, hdue, -⟩ := silenceSlot_eq_some.mp hx
  exact h x hslot (Timer.isDue_iff.mp hdue)

/-- The slot of a module that a frame has just been heard from (R48). -/
theorem slot_takePoint {s : State} {origin : Station} {items : List Item} {x : Slot} (hrunning : s.start.part = .running)
    (hslot : s.tables.active.slot? origin = some x) :
    (s.takePoint origin items).tables.active.slot? origin = some { x with state := .live, timer := .start x.limit } := by
  obtain ⟨hstation, -⟩ := Bank.slot?_some hslot
  obtain ⟨-, hslots⟩ := evaluateFrame_keeps s origin items
  have hsame : (s.evaluateFrame origin items).bank.slot? origin = some x := by rw [Bank.slot?, hslots]; exact hslot
  obtain ⟨q, up, n, htake⟩ := takePoint_eq s origin items
  rw [htake]
  simp only [TableStore.setActive_active, State.bankAfterFrame, heard_of_running hrunning hslot, Bank.hear, Bank.slot?_setSlot, hsame,
    hstation, Option.map_some, if_true]

/-! ## The Emitter's timers (R87, R90, R95) -/

theorem whenReleased_self {s : State} {f : State → State} (h : f s = s) : whenReleased s f = .next s := by
  rw [whenReleased, h, ite_self]

theorem exec_ackWaitExpiry_not_due {s : State} (h : ¬∃ d, s.emitter.ackTimer = .running 0 d) : exec .ackWaitExpiry s = .next s :=
  whenReleased_self (if_neg (by rwa [Timer.isDue_iff]))

theorem exec_hailExpiry_not_due {s : State} (h : ¬∃ d, s.emitter.hailTimer = .running 0 d) : exec .hailExpiry s = .next s :=
  whenReleased_self (if_neg fun hdue => h (Timer.isDue_iff.mp (Bool.and_eq_true_iff.mp hdue).2))

theorem exec_refillExpiry_not_due {s : State} {c : ReportClass} (h : ¬∃ d, s.emitter.refill.get c = .running 0 d) :
    exec (.refillExpiry c) s = .next s := by
  refine whenReleased_self (if_neg fun hdue => h (Timer.isDue_iff.mp ?_))
  simp only [State.refillExpires, Bool.and_eq_true] at hdue
  exact hdue.1.2

/-- An ack wait expiry by the retry count of the oldest record (R90, R94). -/
theorem ackExpired_cons {s : State} {o : Outstanding} {rest : List Outstanding} (h : s.emitter.outstanding = o :: rest) :
    s.ackExpired =
      if o.retry < s.start.settings.retryLimit then
        { s with
          emitter :=
            { s.emitter with
              ackTimer := .stopped
              outstanding := { o with retry := o.retry + 1, transmit := .flagged } :: rest } }
      else
        { s with
          emitter :=
            { s.emitter with
              ackTimer := .stopped, link := .deaf
              hailTimer := .running s.start.settings.hailInterval s.start.settings.hailInterval }
          start := { s.start with alert := true } } := by
  have hcases : s.ackExpired =
      if o.retry < s.start.settings.retryLimit then s.withEmitter s.emitter.flagOldest else s.goDeaf := by
    rw [State.ackExpired, h]
  have hflag : s.emitter.flagOldest =
      { s.emitter with
        ackTimer := .stopped
        outstanding := { o with retry := o.retry + 1, transmit := .flagged } :: rest } := by
    rw [Emitter.flagOldest, h]
  rw [hcases, hflag]
  rfl

theorem exec_hailExpiry_due {s : State} {d : Nat} (hreset : s.start.resetHeld = false) (hdeaf : s.emitter.link = .deaf)
    (hdue : s.emitter.hailTimer = .running 0 d) :
    exec .hailExpiry s = .next
      (s.withEmitter { s.emitter with hailPending := true, hailTimer := .start s.start.settings.hailInterval }) :=
  exec_hailExpiry hreset (Bool.and_eq_true_iff.mpr ⟨decide_eq_true hdeaf, Timer.isDue_iff.mpr ⟨d, hdue⟩⟩)

theorem exec_refillExpiry_due {s : State} {c : ReportClass} {d : Nat} (hreset : s.start.resetHeld = false)
    (hstarted : s.started = true) (hdue : s.emitter.refill.get c = .running 0 d) (hperiod : (s.emitter.classes.get c).period ≠ 0) :
    exec (.refillExpiry c) s = .next (s.withEmitter (s.emitter.refilled c)) := by
  refine exec_refillExpiry hreset ?_
  rw [State.refillExpires, hstarted, Timer.isDue_iff.mpr ⟨d, hdue⟩, decide_eq_true hperiod]
  rfl

theorem refillTimer_of_ne_zero {period : Nat} (h : period ≠ 0) : refillTimer period = .running period period := if_neg h

/-- Settles O41. -/
theorem timerExpiries : Obligations.TimerExpiries := by
  refine ⟨?silence, ?ack, ?others, ?notDue, ?frame⟩
  case silence =>
    intro s m x d hreset hrunning hslot hdue hheard
    rw [exec_silenceExpiry_due hreset hrunning hslot hdue hheard, goSilent_bank]
  case ack =>
    intro s o rest d hreset hdue houtstanding
    rw [exec_ackWaitExpiry hreset (Timer.isDue_iff.mpr ⟨d, hdue⟩), ackExpired_cons houtstanding]
  case others =>
    intro s d hreset
    refine ⟨fun hdeaf hdue => exec_hailExpiry_due hreset hdeaf hdue, fun c hstarted hdue hperiod => ?_⟩
    rw [exec_refillExpiry_due hreset hstarted hdue hperiod, Emitter.refilled, refillTimer_of_ne_zero hperiod]
    rfl
  case notDue =>
    intro s out
    exact ⟨fun m h => exec_silenceExpiry_not_due h, exec_ackWaitExpiry_not_due, exec_hailExpiry_not_due,
      fun c => exec_refillExpiry_not_due⟩
  case frame =>
    intro s t bytes src origin items x hreset hframe hown hrunning hslot hlimit hnext
    rw [exec_pointFrame hreset hframe hown] at hnext
    cases hnext
    refine exec_silenceExpiry_not_due fun y hy => ?_
    rw [slot_takePoint hrunning hslot] at hy
    cases hy
    rintro ⟨d, hdue⟩
    simp only [Timer.start, Timer.running.injEq] at hdue
    omega

end Sys2Proof.Machine
end

section
/-!
PROOFS. The Emitter's choice, the Sweep Generator's wins, the arbiter's grants and the ends of transmissions (R80 to R86, R104 to R109,
R144 to R149).
-/

namespace Sys2Proof.Machine

set_option Elab.async false

/-! ## The choice (R81 to R83) -/

theorem reportOffer_iff (s : State) (owner : Node) (c : Choice) :
    s.reportOffer = some (owner, c) ↔
      s.mgmt.owner = some owner ∧ s.emitter.link = .normal ∧ s.started = true ∧ s.choice = some c := by
  refine ⟨reportOffer_some, fun ⟨howner, hlink, hstarted, hchoice⟩ => ?_⟩
  simp only [State.reportOffer, State.listener, hlink, hstarted, and_self, if_true, howner, hchoice]

theorem classContends_iff (s : State) (c : ReportClass) :
    s.classContends c = true ↔
      (s.emitter.classes.get c).enabled = true ∧ s.queue.lists.get c ≠ [] ∧
        ((s.emitter.classes.get c).period = 0 ∨ 0 < s.emitter.credits.get c) := by
  simp only [State.classContends, Bool.and_eq_true, Bool.or_eq_true, decide_eq_true_eq, Bool.not_eq_true', List.isEmpty_eq_false_iff,
    and_assoc]

/-- A class ranks before another: by rank, and at equal ranks by number (R83). -/
def ranksBefore (classes : PerClass ClassSetting) (c d : ReportClass) : Bool :=
  decide ((classes.get c).rank < (classes.get d).rank ∨ (classes.get c).rank = (classes.get d).rank ∧ c < d)

/-- In class order a later class never wins at equal ranks, so that the search by rank alone is the search by rank and number. -/
theorem foldl_better_rank (classes : PerClass ClassSetting) (l : List ReportClass) (best : Option ReportClass)
    (hsorted : l.Pairwise (· < ·)) (hbest : ∀ b ∈ best, ∀ c ∈ l, b < c) :
    l.foldl (better fun c b => decide ((classes.get c).rank < (classes.get b).rank)) best =
      l.foldl (better (ranksBefore classes)) best := by
  induction l generalizing best with
  | nil => rfl
  | cons c l ih =>
    obtain ⟨hc, hl⟩ := List.pairwise_cons.mp hsorted
    have hstep : better (fun c b => decide ((classes.get c).rank < (classes.get b).rank)) best c =
        better (ranksBefore classes) best c := by
      cases best with
      | none => rfl
      | some b =>
        have hlt : ¬c < b := (hbest b rfl c List.mem_cons_self).asymm
        simp only [better, ranksBefore, hlt, and_false, or_false]
    rw [List.foldl_cons, List.foldl_cons, hstep]
    refine ih _ hl fun b hb d hd => ?_
    cases best with
    | none => cases hb; exact hc d hd
    | some b' =>
      simp only [better] at hb
      split at hb
      · cases hb; exact hc d hd
      · cases hb; exact hbest _ rfl d (List.mem_cons_of_mem c hd)

theorem bestClass_iff (s : State) (c : ReportClass) :
    s.bestClass = some c ↔
      s.classContends c = true ∧
      ∀ d : ReportClass, s.classContends d = true → d ≠ c →
        (s.emitter.classes.get c).rank < (s.emitter.classes.get d).rank ∨
        ((s.emitter.classes.get c).rank = (s.emitter.classes.get d).rank ∧ c < d) := by
  have hsearch : s.bestClass =
      (allClasses.filter s.classContends).foldl
        (better fun c b => decide ((s.emitter.classes.get c).rank < (s.emitter.classes.get b).rank)) none := by
    simp only [State.bestClass]
    congr 1
    funext best d
    cases best <;> simp [better]
  have hsorted : (allClasses.filter s.classContends).Pairwise (· < ·) := List.Pairwise.filter _ (by decide)
  rw [hsearch, foldl_better_rank _ _ _ hsorted (by simp), foldl_better_iff]
  · simp [mem_allClasses, ranksBefore]
  · intro a b c hab hbc
    simp only [ranksBefore, decide_eq_true_eq, Fin.lt_def, Fin.ext_iff] at *; omega
  · intro a b hab
    simp only [ranksBefore, decide_eq_true_eq, decide_eq_false_iff_not, Fin.lt_def, Fin.ext_iff] at *; omega
  · intro a b hne
    simp only [ranksBefore, decide_eq_true_eq, ne_eq, Fin.lt_def, Fin.ext_iff] at *; omega

theorem choice_eq (s : State) :
    s.choice =
      match s.emitter.outstanding.find? fun o => decide (o.transmit = .flagged) with
      | some o => some (.retransmit o)
      | none =>
        if 32 ≤ s.emitter.outstanding.length then none
        else
          match s.queue.urgent, s.bestClass with
          | r :: _, _ => some (.urgent r)
          | [], some c =>
            if s.sweepContends = true ∧ s.start.settings.sweepRank < (s.emitter.classes.get c).rank then some .sweep
            else (s.queue.lists.get c).head?.map (.fromClass c)
          | [], none => if s.sweepContends = true then some .sweep else none := by
  simp only [State.choice]
  cases s.emitter.outstanding.find? fun o => decide (o.transmit = .flagged) with
  | some o => rfl
  | none =>
    dsimp only
    by_cases hfull : 32 ≤ s.emitter.outstanding.length
    · rw [if_pos hfull]; exact if_neg hfull.not_gt
    · rw [if_neg hfull]
      refine (if_pos (not_le.mp hfull)).trans ?_
      cases s.queue.urgent with
      | cons r rest => rfl
      | nil => simp only [State.contest]; cases s.bestClass <;> rfl

/-- Settles O44. -/
theorem emitterChoice : Obligations.EmitterChoice := fun s =>
  ⟨reportOffer_iff s, bestClass_iff s, classContends_iff s, choice_eq s⟩

/-! ## The Sweep Generator's wins (R104 to R109) -/

theorem sweepContends_iff (s : State) :
    s.sweepContends = true ↔
      s.tables.activity = .idle ∧
        ((s.start.part = .running ∧ s.sweep.state ≠ .idle) ∨ (s.start.part = .held ∧ s.sweep.state = .stopping)) := by
  cases hstate : s.sweep.state with
  | idle => simp [State.sweepContends, hstate]
  | active => simp [State.sweepContends, hstate, isRunning_iff]
  | stopping => simp [State.sweepContends, hstate, started_iff, or_comm]

theorem covers_eq (scope : Scope) (e : Entry) :
    scope.covers e =
      match scope with
      | .all => true
      | .disagree => decide (e.run.verdict = .disagree ∨ e.run.verdict = .faulted)
      | .cls c => decide (e.config.cls = c) := by
  cases scope with
  | all | cls => rfl
  | disagree => exact (Bool.decide_or ..).symm

theorem nextSwept_eq {s : State} {scope : Scope} (h : s.sweep.scope = some scope) :
    s.nextSwept =
      s.tables.active.entries.find? fun e =>
        decide (∀ k ∈ s.sweep.cursor, k.index < e.config.key.index) &&
          (match scope with
          | .all => true
          | .disagree => decide (e.run.verdict = .disagree ∨ e.run.verdict = .faulted)
          | .cls c => decide (e.config.cls = c)) := by
  simp only [State.nextSwept, Bank.nextEntry, beyond_eq, h, Option.map_some, Option.getD_some, covers_eq]

/-- Settles O45. -/
theorem sweepWins : Obligations.SweepWins := by
  intro s
  refine ⟨sweepContends_iff s, fun hstopping => by simp only [State.sweepWin, hstopping]; rfl, fun scope hactive hscope => ?_⟩
  simp only [State.sweepWin, hactive]
  rw [nextSwept_eq hscope]
  cases s.tables.active.entries.find? _ <;> rfl

/-! ## The arbiter (R146, R147) -/

section
variable {s : State}

theorem nextGrant_response {r : Response} {rest : List Response} (h : s.ports.responses = r :: rest) :
    s.nextGrant = some (.response r) := by
  simp only [State.nextGrant, h]

/-- The Up FIFO goes before no report, and before an ordinary one while the mark is UP-NEXT. -/
theorem nextGrant_up {f : UpFrame} {rest : List UpFrame} (hresponses : s.ports.responses = []) (hup : s.ports.up = f :: rest)
    (hoffer : ∀ owner c, s.reportOffer = some (owner, c) → c.isUrgent = false ∧ s.ports.mark = .upNext) :
    s.nextGrant = some (.up f) := by
  have hfront : s.upOrHail = some (.up f) := by simp only [State.upOrHail, hup]
  simp only [State.nextGrant, hresponses]
  cases hreport : s.reportOffer with
  | none => exact hfront
  | some offer =>
    obtain ⟨owner, c⟩ := offer
    obtain ⟨hurgent, hmark⟩ := hoffer owner c hreport
    dsimp only
    rw [if_pos ⟨hurgent, by simp [hup], hmark⟩, hfront]

theorem nextGrant_hail {owner : Node} {o : Outstanding} {rest : List Outstanding} (hresponses : s.ports.responses = [])
    (hup : s.ports.up = []) (hdeaf : s.emitter.link = .deaf) (hpending : s.emitter.hailPending = true)
    (howner : s.mgmt.owner = some owner) (houtstanding : s.emitter.outstanding = o :: rest) :
    s.nextGrant = some (.hail owner o.number) := by
  have hoffer : s.reportOffer = none := by
    simp only [State.reportOffer, State.listener, hdeaf, reduceCtorEq, false_and, if_false]
  simp only [State.nextGrant, hresponses, hoffer, State.upOrHail, hup, State.hailOffer, hpending, hdeaf, and_self, if_true, howner,
    houtstanding]

theorem nextGrant_report {owner : Node} {c : Choice} (hresponses : s.ports.responses = [])
    (hoffer : s.reportOffer = some (owner, c)) (hwins : c.isUrgent = true ∨ s.ports.up = [] ∨ s.ports.mark = .reportNext) :
    s.nextGrant = some (.report owner c) := by
  simp only [State.nextGrant, hresponses, hoffer]
  refine if_neg fun ⟨hurgent, hup, hmark⟩ => ?_
  rcases hwins with h | h | h
  · rw [hurgent] at h; cases h
  · exact hup h
  · rw [hmark] at h; cases h

end

/-- Settles O42. -/
theorem grantsBesideReports : Obligations.GrantsBesideReports := by
  intro s hreset hfree
  refine ⟨fun r rest hresponses => ?response, fun hresponses => ⟨fun f rest hup hoffer => ?up, ?hail⟩⟩
  case response =>
    rw [exec_transmitGrant hreset hfree (nextGrant_response hresponses), State.grant, hresponses]; rfl
  case up =>
    rw [exec_transmitGrant hreset hfree (nextGrant_up hresponses hup hoffer), State.grant, hup]
    cases f <;> rfl
  case hail =>
    intro owner o rest hup hdeaf hpending howner houtstanding
    rw [exec_transmitGrant hreset hfree (nextGrant_hail hresponses hup hdeaf hpending howner houtstanding), State.grant, houtstanding]
    rfl

/-- A class pays one credit, unless its refill period is 0 (R86). -/
theorem pay_credits (e : Emitter) (c : ReportClass) :
    e.pay c =
      { e with credits := if (e.classes.get c).period = 0 then e.credits else e.credits.set c (e.credits.get c - 1) } := by
  simp only [Emitter.pay]
  split <;> rfl

/-- Settles O43, choice by choice. -/
theorem grantsOfReports : Obligations.GrantsOfReports := by
  intro s owner choice hreset hfree hresponses hoffer hwins sent first
  rw [exec_transmitGrant hreset hfree (nextGrant_report hresponses hoffer hwins)]
  refine congrArg Host.Outcome.next ?_
  cases choice with
  | retransmit o => cases hurgent : o.report.urgent <;> simp only [State.grant, Choice.isUrgent, hurgent, sent] <;> rfl
  | urgent r => rfl
  | fromClass c r => simp only [State.grant, State.emit, pay_credits]; rfl
  | sweep => rfl

/-! ## Ends of transmissions (R80, R89, R144, R148) -/

theorem copyEnds_eq (e : Emitter) (ackWait : Nat) (n : Word) :
    e.copyEnds ackWait n =
      { e with
        outstanding := e.outstanding.map fun o =>
          if some n = some o.number ∧ o.transmit = .sending then { o with transmit := .sent } else o
        ackTimer :=
          match e.outstanding with
          | o :: _ =>
            if some n = some o.number ∧ o.transmit = .sending then
              if e.link = .normal then .running ackWait ackWait else .stopped
            else e.ackTimer
          | [] => e.ackTimer } := by
  have hnumber : ∀ o : Outstanding, some n = some o.number ↔ o.number = n := fun o => by rw [Option.some.injEq, eq_comm]
  simp only [Emitter.copyEnds, hnumber]
  cases houtstanding : e.outstanding with
  | nil => rfl
  | cons o rest =>
    by_cases hcopy : o.number = n ∧ o.transmit = .sending
    · have holdest : oldestIsSending n (o :: rest) = true := by simpa [oldestIsSending] using hcopy
      simp only [holdest, if_true, endCopy, List.map_cons, hcopy, and_self, ackTimerFor, true_and]
      rfl
    · have holdest : ¬oldestIsSending n (o :: rest) = true := by simpa [oldestIsSending] using hcopy
      simp only [holdest, if_neg hcopy]
      rfl

/-- Settles O46. -/
theorem endsOfTransmission : Obligations.EndsOfTransmission := by
  intro s hreset
  refine ⟨fun f hsending => ?_, fun f rest hfree hdown => ?_, ?_⟩
  · simp only [exec, execTPortFrameEnd, whenReleased_released hreset, hsending]
    cases f.report with
    | none =>
      have htimer : (match s.emitter.outstanding with | _ :: _ | [] => s.emitter.ackTimer) = s.emitter.ackTimer := by
        cases s.emitter.outstanding <;> rfl
      simp only [reduceCtorEq, false_and, if_false, List.map_id']
      exact congrArg (fun timer => Host.Outcome.next
        { s with emitter := { s.emitter with ackTimer := timer }, ports := { s.ports with tSending := none } }) htimer.symm
    | some n => simp only [copyEnds_eq]; rfl
  · simp only [exec, execFPortTransmitStart, whenReleased_released hreset, hfree, hdown]; rfl
  · simp only [exec, execFPortTransmitEnd, whenReleased_released hreset]; rfl

/-! ## No report without an owner or while DEAF (R81, R94) -/

/-- What a grant that is no report's leaves as it was. -/
abbrev State.sendsNoReport (s t : State) : Prop :=
  t.queue = s.queue ∧ t.sweep = s.sweep ∧ t.emitter.outstanding = s.emitter.outstanding ∧
    t.emitter.nextNumber = s.emitter.nextNumber ∧ (s.mgmt.owner = none → t.emitter = s.emitter) ∧
    (t.ports.tSending = s.ports.tSending ∨ ∃ bytes, t.ports.tSending = some ⟨bytes, none⟩)

theorem sendsNoReport_self (s : State) : s.sendsNoReport s := ⟨rfl, rfl, rfl, rfl, fun _ => rfl, .inl rfl⟩

theorem grant_sendsNoReport {s : State} {g : Grant} (hg : s.nextGrant = some g) (h : s.mgmt.owner = none ∨ s.emitter.link = .deaf) :
    s.sendsNoReport (s.grant g) := by
  obtain ⟨r, rest, -, rfl⟩ | ⟨-, ⟨owner, c, hoffer, -⟩ | ⟨f, rest, -, rfl⟩ | ⟨-, hhail⟩⟩ := nextGrant_cases hg
  · exact ⟨rfl, rfl, rfl, rfl, fun _ => rfl, .inr ⟨_, rfl⟩⟩
  · obtain ⟨howner, hlink, -⟩ := reportOffer_some hoffer
    rcases h with h | h
    · rw [howner] at h; cases h
    · rw [hlink] at h; cases h
  · cases f <;> exact ⟨rfl, rfl, rfl, rfl, fun _ => rfl, .inr ⟨_, rfl⟩⟩
  · obtain ⟨-, -, owner, o, rest, howner, -, rfl⟩ := hailOffer_some hhail
    exact ⟨rfl, rfl, rfl, rfl, fun hnone => absurd hnone (by simp [howner]), .inr ⟨_, rfl⟩⟩

/-- Settles O47. -/
theorem noReportWithoutOwnerOrWhileDeaf : Obligations.NoReportWithoutOwnerOrWhileDeaf := by
  intro s t hnext h
  show s.sendsNoReport t
  simp only [exec, execTransmitGrant] at hnext
  obtain ⟨-, ht⟩ | ⟨-, ht⟩ := whenReleased_cases hnext <;> rw [ht]
  · exact sendsNoReport_self s
  · split
    · next g _ hg => exact grant_sendsNoReport hg h
    · exact sendsNoReport_self s

end Sys2Proof.Machine
end

section
/-!
PROOFS. What holds of whole classes of commands: records leave the outstanding list by ACK, owner change and restart alone (R79), the
sweep's cursor moves forward only (R106); the reports of the transitions (R36 to R39); and the state after reset obeys every law.
-/

namespace Sys2Proof.Machine

set_option Elab.async false

/-! ## Records leave the outstanding list by ACK, owner change or restart (R79) -/

theorem emit_numbers {s : State} (owner : Node) (ch : Choice) :
    s.emitter.outstanding.map Outstanding.number <+: (s.emit owner ch).emitter.outstanding.map Outstanding.number := by
  by_cases hfirst : ∀ o, ch ≠ .retransmit o
  · obtain ⟨o, -, -, hlist, -⟩ := emit_first s owner hfirst
    rw [hlist, List.map_append]
    exact List.prefix_append ..
  · obtain ⟨o, rfl⟩ := not_forall_not.mp hfirst
    exact (setTransmit_numbers o.number .sending s.emitter.outstanding).symm ▸ List.prefix_rfl

theorem flagOldest_numbers (e : Emitter) :
    e.flagOldest.outstanding.map Outstanding.number = e.outstanding.map Outstanding.number := by
  cases h : e.outstanding <;> simp [Emitter.flagOldest, h]

/-- The commands that take no record from the outstanding list. -/
abbrev keepsRecords (c : Instr) : Prop :=
  ¬isTrunkFrame c ∧ (∀ pins, c ≠ .endOfPinReset pins) ∧
    ∀ n, commandName c = some n → n ∉ [RequestName.ack, .claim, .yieldOwnership, .restart]

theorem not_carries {c : Instr} (hc : keepsRecords c) {n : RequestName}
    (hn : n ∈ [RequestName.ack, .claim, .yieldOwnership, .restart]) : ¬carries c n := by
  obtain ⟨htrunk, -, hnames⟩ := hc
  exact fun h => h.elim (fun hname => hnames n hname hn) htrunk

theorem not_entersScrub {c : Instr} (htrunk : ¬isTrunkFrame c) (hpins : ∀ pins, c ≠ .endOfPinReset pins)
    (hcold : ∀ src tag pins, c ≠ .coldRestart src tag pins) : ¬entersScrub c := by
  rintro (⟨pins, h⟩ | ⟨src, tag, pins, h⟩ | h)
  · exact hpins pins h
  · exact hcold src tag pins h
  · exact htrunk h

theorem Effect.keeps_numbers {c : Instr} (hc : keepsRecords c) {s t : State} (h : Effect c s t) :
    s.emitter.outstanding.map Outstanding.number <+: t.emitter.outstanding.map Outstanding.number := by
  cases h with
  | enterScrub _ _ _ hscrub =>
    obtain ⟨htrunk, hpins, hnames⟩ := hc
    exact absurd hscrub (not_entersScrub htrunk hpins fun _ _ _ h => hnames .restart (h ▸ rfl) (by decide))
  | changeOwner _ _ hchange => exact absurd hchange (not_or.mpr ⟨not_carries hc (by decide), not_carries hc (by decide)⟩)
  | acked _ _ hack => exact absurd hack (not_carries hc (by decide))
  | warm hrestart => exact absurd hrestart (not_carries hc (by decide))
  | completeCopy => rw [State.completeCopy, State.finalResponse_emitter]; exact List.prefix_rfl
  | refuseCommit => rw [State.refuseCommit, State.finalResponse_emitter]; exact List.prefix_rfl
  | completeCommit => rw [State.completeCommit, State.finalResponse_emitter]; exact List.prefix_rfl
  | takeMark => rw [State.takeMark_emitter]
  | endDeaf => rw [endDeaf_numbers]
  | flagOldest => rw [State.withEmitter_emitter, flagOldest_numbers]
  | copyEnds n => exact (endCopy_numbers n s.emitter.outstanding).symm ▸ List.prefix_rfl
  | emits owner ch => exact emit_numbers owner ch
  | _ => exact List.prefix_rfl

/-- Settles O48, effect by effect. -/
theorem recordsLeaveOnlyByAckOwnerOrRestart : Obligations.RecordsLeaveOnlyByAckOwnerOrRestart := by
  intro s t c h hpins htrunk hnames
  have hc : keepsRecords c := ⟨fun ⟨bytes, pins, h⟩ => htrunk bytes pins h, hpins, hnames⟩
  have heffects := exec_effects h
  clear h
  induction heffects with
  | refl => exact List.prefix_rfl
  | tail _ he ih => exact ih.trans (he.keeps_numbers hc)

/-! ## The cursor of a sweep moves forward only (R106) -/

/-- The cursor and the count of a sweep as they were. -/
abbrev SweepGenerator.stays (g g' : SweepGenerator) : Prop := g'.cursor = g.cursor ∧ g'.count = g.count

/-- The commands that neither start a sweep nor grant, and that are no reset. -/
abbrev leavesSweep (c : Instr) : Prop :=
  ¬entersScrub c ∧ ¬isTrunkFrame c ∧ commandName c ≠ some .sweepStart ∧ c ≠ .transmitGrant

theorem Effect.keeps_cursor {c : Instr} (hc : leavesSweep c) {s t : State} (h : Effect c s t) : s.sweep.stays t.sweep := by
  obtain ⟨hscrub, htrunk, hstart, hgrant⟩ := hc
  cases h with
  | enterScrub _ _ _ h => exact absurd h hscrub
  | takeMark _ h => exact absurd h htrunk
  | sweepStarts _ _ h => exact absurd h (not_or.mpr ⟨hstart, htrunk⟩)
  | emits _ _ _ h => exact absurd h hgrant
  | completeCopy => rw [State.completeCopy, State.finalResponse_sweep]; exact ⟨rfl, rfl⟩
  | refuseCommit => rw [State.refuseCommit, State.finalResponse_sweep]; exact ⟨rfl, rfl⟩
  | completeCommit => rw [State.completeCommit, State.finalResponse_sweep]; exact ⟨rfl, rfl⟩
  | endDeaf => rw [State.endDeaf_sweep]; exact ⟨rfl, rfl⟩
  | changeOwner =>
    simp only [State.changeOwner, State.withMgmt_sweep, State.withSweep_sweep, State.emitterOwnerChange_sweep,
      SweepGenerator.ownerChange]
    cases s.sweep.state <;> exact ⟨rfl, rfl⟩
  | _ => exact ⟨rfl, rfl⟩

theorem exec_leavesSweep {c : Instr} (hc : leavesSweep c) {s t : State} (h : exec c s = .next t) : s.sweep.stays t.sweep := by
  have heffects := exec_effects h
  clear h
  induction heffects with
  | refl => exact ⟨rfl, rfl⟩
  | tail _ he ih =>
    obtain ⟨hcursor, hcount⟩ := he.keeps_cursor hc
    exact ⟨hcursor.trans ih.1, hcount.trans ih.2⟩

/-- SWEEP-START leaves the Sweep Generator as it is, or starts a sweep of a new number. -/
abbrev SweepGenerator.staysOrStarts (g g' : SweepGenerator) : Prop := g' = g ∨ ∃ scope, g' = g.started scope

theorem sweepStart_judge (s : State) (q : Request) :
    s.sweep.staysOrStarts (s.judge q (some .sweepStart) sweepStartRule).sweep := by
  simp only [State.judge, sweepStartRule]
  split_ifs
  · exact .inl (State.respond_sweep ..)
  · exact .inl (State.respond_sweep ..)
  · split
    · split
      · exact .inl (State.respond_sweep ..)
      · split
        · exact .inr ⟨_, State.respond_sweep ..⟩
        · exact .inl (State.respond_sweep ..)
        · exact .inl (State.respond_sweep ..)
    · exact .inl (State.respond_sweep ..)

theorem sweepStart_handRequest (s : State) (q : Request) :
    s.sweep.staysOrStarts (s.handRequest q (some .sweepStart) sweepStartRule).sweep := by
  simp only [State.handRequest]
  split
  · cases hstarted : s.started
    · rw [takeRequest_notReady hstarted]; exact .inl rfl
    · by_cases howner : s.mgmt.owner = some q.src
      · rw [takeRequest_ofOwner hstarted howner, ← State.endDeaf_sweep s]
        split
        · next content _ => cases content <;> exact .inl rfl
        · exact sweepStart_judge ..
      · rw [takeRequest_other hstarted howner]; exact sweepStart_judge ..
  · exact .inl rfl

theorem exec_sweepStart {src : Node} {tag : Byte} {ps : List Byte} {s t : State} (h : exec (.sweepStart src tag ps) s = .next t) :
    s.sweep.staysOrStarts t.sweep := by
  rw [exec_request rfl] at h
  obtain ⟨-, rfl⟩ | ⟨-, rfl⟩ := whenReleased_cases h
  · exact .inl rfl
  · split
    · exact sweepStart_handRequest ..
    · exact .inl rfl

/-- A sweep started has another number. -/
theorem started_number_ne (g : SweepGenerator) (scope : Scope) : (g.started scope).number ≠ g.number := by
  simp [SweepGenerator.started]

/-- One entry swept: the cursor goes to an entry of the ACTIVE bank beyond it, and the count goes up. -/
abbrev State.sweepsOne (s : State) (g : SweepGenerator) : Prop :=
  ∃ e ∈ s.tables.active.entries,
    g.cursor = some e.config.key ∧ (∀ k ∈ s.sweep.cursor, k.index < e.config.key.index) ∧ g.count = min 512 (s.sweep.count + 1)

theorem sweepWin_cursor (s : State) : s.sweep.stays s.sweepWin.2 ∨ s.sweepsOne s.sweepWin.2 := by
  simp only [State.sweepWin]
  split
  · exact .inl ⟨rfl, rfl⟩
  · split
    · next e hnext =>
      obtain ⟨hmem, hbeyond, -⟩ := Bank.nextEntry_some hnext
      rw [beyond_eq, decide_eq_true_eq] at hbeyond
      exact .inr ⟨e, hmem, rfl, hbeyond, rfl⟩
    · exact .inl ⟨rfl, rfl⟩

theorem grant_cursor {s : State} {g : Grant} (h : s.nextGrant = some g) :
    s.sweep.stays (s.grant g).sweep ∨ s.sweepsOne (s.grant g).sweep := by
  obtain ⟨r, rest, -, rfl⟩ | ⟨-, ⟨owner, ch, -, rfl⟩ | ⟨f, rest, -, rfl⟩ | ⟨-, hhail⟩⟩ := nextGrant_cases h
  · exact .inl ⟨rfl, rfl⟩
  · have hsweep : (s.grant (.report owner ch)).sweep = (s.emit owner ch).sweep := by simp only [State.grant]; split <;> rfl
    rw [hsweep]
    cases ch with
    | sweep => exact sweepWin_cursor s
    | _ => exact .inl ⟨rfl, rfl⟩
  · cases f <;> exact .inl ⟨rfl, rfl⟩
  · obtain ⟨-, -, owner, o, rest, -, -, rfl⟩ := hailOffer_some hhail
    exact .inl ⟨rfl, rfl⟩

theorem exec_transmitGrant_cursor {s t : State} (h : exec .transmitGrant s = .next t) :
    s.sweep.stays t.sweep ∨ s.sweepsOne t.sweep := by
  simp only [exec, execTransmitGrant] at h
  obtain ⟨-, rfl⟩ | ⟨-, rfl⟩ := whenReleased_cases h
  · exact .inl ⟨rfl, rfl⟩
  · split
    · next hg => exact grant_cursor hg
    · exact .inl ⟨rfl, rfl⟩

theorem commandName_sweepStart {c : Instr} (h : commandName c = some .sweepStart) : ∃ src tag ps, c = .sweepStart src tag ps := by
  cases c <;> simp only [commandName, Option.some.injEq, reduceCtorEq] at h
  exact ⟨_, _, _, rfl⟩

/-- Settles O49: a grant moves the cursor, SWEEP-START changes the number, and nothing else reaches either. -/
theorem cursorAscends : Obligations.CursorAscends := by
  intro s t c h hnumber hpins hcold htrunk
  by_cases hgrant : c = .transmitGrant
  · subst hgrant; exact exec_transmitGrant_cursor h
  left
  by_cases hstart : commandName c = some .sweepStart
  · obtain ⟨src, tag, ps, rfl⟩ := commandName_sweepStart hstart
    obtain hsame | ⟨scope, hstarted⟩ := exec_sweepStart h
    · rw [hsame]; exact ⟨rfl, rfl⟩
    · exact absurd (hstarted ▸ hnumber) (started_number_ne s.sweep scope)
  · have hframe : ¬isTrunkFrame c := fun ⟨bytes, pins, h⟩ => htrunk bytes pins h
    exact exec_leavesSweep ⟨not_entersScrub hframe hpins hcold, hframe, hstart, hgrant⟩ h

/-! ## The reports of the transitions (R36 to R39) -/

/-- Settles O18, transition by transition. -/
theorem transitionReports : Obligations.TransitionReports := by
  rintro e v cycle _ rfl
  refine ⟨rfl, rfl, rfl, rfl, fun before => ?_⟩
  cases before <;> rfl

/-! ## The state after reset -/

theorem reset_supervised : State.reset.supervised := by decide

theorem reset_queueSound : State.reset.queueSound := (queueSound_iff _).mpr ⟨atReset_sound, by decide⟩

theorem reset_outstandingSound : State.reset.outstandingSound := by decide

theorem reset_settingsSound : State.reset.settingsSound := by decide

theorem reset_linkSound : State.reset.linkSound := by decide

theorem reset_requestsSound : State.reset.requestsSound := by decide

/-- Settles O52, law by law. -/
theorem resetIsSound : Obligations.ResetIsSound :=
  ⟨sound_atReset, reset_supervised, reset_queueSound, distinct_atReset, reset_outstandingSound, reset_settingsSound, reset_linkSound,
    reset_requestsSound⟩

end Sys2Proof.Machine
end
